-- ==== Sys2Proof/Word.lean ====
section
/-! DEFINITION. The two word types of the specification (R10). Every quantity is unsigned. -/

namespace Sys2Proof

/-- A byte: an unsigned integer 0..255 (R10). -/
abbrev Byte := BitVec 8

/-- A word16: an unsigned integer 0..65535 (R10). -/
abbrev Word16 := BitVec 16

/-- `zeros(n)`: the sequence of `n` bytes 0x00 (R11). -/
abbrev zeros (n : Nat) : List Byte := List.replicate n 0

end Sys2Proof
end

