-- ==== Sys2Proof/Syntax.lean ====
section
/-! DEFINITION. What the agents of the frame core say to each other: the Frame record, the transaction
words on the four encoding formats of the opcode table, the turns of the agents, and `Instr`, one
constructor per row of spec/opcode_table.json. -/

namespace Sys2Proof

/-- An opaque sink identifier (R21). -/
abbrev Sink := Nat

/-- The Frame record of R15. A Frame given to the block may hold any values in `len`, `rsv0`, `rsv1` and
`ck`; a Frame the block produces has them consistent (C10). -/
structure Frame where
  dst : Word16
  src : Word16
  len : Byte
  rsv0 : Byte
  rsv1 : Byte
  op : Byte
  payload : List Byte
  ck : Word16
  deriving DecidableEq, Repr, Inhabited

/-- The fields of a wire frame that its layout (R51) leaves free once the operation byte is given:
`len` and `ck` follow from them. The operand of the twelve OPBYTE rows. -/
structure WireFields where
  dst : Word16
  src : Word16
  rsv0 : Byte
  rsv1 : Byte
  payload : List Byte
  deriving DecidableEq, Repr, Inhabited

/-- The twelve named operation codes of R57. -/
inductive OpName
  | readTableBlock | acknowledgeA | acknowledgeB | writeTableBlock | changeTableName
  | negativeAcknowledge | alarmPacket | readObjectData | readVariable | writeForceVariable
  | autoVariableReport | readList
  deriving DecidableEq, Repr, Inhabited

/-- The operation byte as the tagged open enumeration R58 asks for: a known name, or the raw byte. -/
inductive OpCode
  | named (n : OpName)
  | unknown (raw : Byte)
  deriving DecidableEq, Repr, Inhabited

/-- The operand that accompanies a command code (R60). The specification gives operands as values and no
byte layout for them, so they stay typed (DESIGN CHOICE, log 8). -/
inductive Operand
  | none
  | byte (b : Byte)
  | bytes (s : List Byte)
  | frame (f : Frame)
  | sink (k : Sink)
  deriving DecidableEq, Repr, Inhabited

/-- The transport's answers to one step of the block (R117, R119): whether an `open` would succeed, how many
bytes a `read` delivers and with which error bit, and whether the transport becomes permanently invalid at
that very request (R122, U19, log 5). The step uses only the answers it asks for. -/
structure TAnswer where
  openOk : Bool
  readLen : Nat
  readErr : Bool
  dies : Bool
  deriving DecidableEq, Repr, Inhabited

/-- The three pseudo-operations of R65, selected by name since the table gives them no bits. -/
inductive PseudoName
  | crc16 | rsyDrain | rsyFeed
  deriving DecidableEq, Repr, Inhabited

/-- One transaction word, on the port of its format: the command port (R60), the 5-bit selector
`SEL = (STATE << 3) | PHASE` with the transport's answers (R63), the wire (R51), or a pseudo-operation
line (R65). -/
inductive TransWord
  | cmd (code : BitVec 4) (operand : Operand)
  | sel (code : BitVec 5) (answer : TAnswer)
  | wire (bytes : List Byte)
  | pseudo (name : PseudoName) (operand : List Byte)
  deriving DecidableEq, Repr, Inhabited

/-- What the environment may do to the transport by itself: bring it up or take it down while the engine
does not run (R153, U9), and let it become permanently invalid between two transactions (R122, U19). -/
inductive EnvEvent
  | openT (ok : Bool)
  | closeT
  | readT (n : Nat)
  | exhaustT
  deriving DecidableEq, Repr, Inhabited

/-- One turn: which agent moves and what it brings (R5, R6). A `block` turn is the worker's step or
`SHUTDOWN.DONE`, whichever the selector names; `wire` is the arrival of bytes on the inbound stream. -/
inductive Turn
  | host (code : BitVec 4) (operand : Operand)
  | hostPseudo (name : PseudoName) (operand : List Byte)
  | block (answer : TAnswer)
  | wire (bytes : List Byte)
  | env (e : EnvEvent)
  deriving DecidableEq, Repr, Inhabited

/-- The instruction set: one constructor per row of spec/opcode_table.json, in the table's order. -/
inductive Instr
  -- command port (R60)
  | crcClr
  | crcUpd (b : Byte)
  | crcGet
  | chkVerify (b : List Byte)
  | enc (f : Frame)
  | dec (b : List Byte)
  | rsyFlush
  | rsyPush (s : List Byte)
  | rsyStep
  | start
  | shutdown
  | probe (k : Sink)
  | status
  | reserved0
  | reservedE
  | reservedF
  -- selector (R63), with the transport's answers; where `dies` is not written the transport stays as it is
  | shutdownDone
  | wGuard
  | wOpenchk (openOk : Bool) (dies : Bool := false)
  | wRead (n : Nat) (err : Bool) (dies : Bool := false)
  | wExtract
  | wErrchk (dies : Bool := false)
  -- pseudo-operations (R65)
  | crc16 (s : List Byte)
  | rsyDrain
  | rsyFeed (s : List Byte)
  -- wire (R51): a frame whose operation byte has no name, then one form per named byte (R57)
  | frame (f : Frame)
  | opReadTableBlock (w : WireFields)
  | opAcknowledgeA (w : WireFields)
  | opAcknowledgeB (w : WireFields)
  | opWriteTableBlock (w : WireFields)
  | opChangeTableName (w : WireFields)
  | opNegativeAcknowledge (w : WireFields)
  | opAlarmPacket (w : WireFields)
  | opReadObjectData (w : WireFields)
  | opReadVariable (w : WireFields)
  | opWriteForceVariable (w : WireFields)
  | opAutoVariableReport (w : WireFields)
  | opReadList (w : WireFields)
  deriving DecidableEq, Repr, Inhabited

end Sys2Proof
end

