-- ==== Sys2Proof/Config.lean ====
section
/-! DEFINITION. The constants of R7, the defaults of the parameters of R8, and the one free value of the
model: which agent moves next where nothing has been placed (R6). -/

namespace Sys2Proof.Config

/-- `HDR_LEN`: header bytes (R7). -/
abbrev hdrLen : Nat := 8

/-- `CK_LEN`: checksum bytes (R7). -/
abbrev ckLen : Nat := 2

/-- `MIN_FRAME`: the smallest frame (R7). -/
abbrev minFrame : Nat := 10

/-- `MAX_PAYLOAD`: the largest payload (R7). -/
abbrev maxPayload : Nat := 255

/-- `MAX_FRAME`: 255 + 10 (R7). -/
abbrev maxFrame : Nat := 265

/-- `LEN_OFF`: the offset of the length byte (R7). -/
abbrev lenOff : Nat := 4

/-- `CRC_POLY` in normal notation (R7, R70). UNVERIFIED against the repository: U12, log 14. -/
def crcPoly : Word16 := 0x8005

/-- `CRC_INIT` (R7, R70). -/
def crcInit : Word16 := 0x0000

/-- `CRC_XOROUT` (R7, R70). -/
def crcXorOut : Word16 := 0x0000

/-- The specification's default for `RD_MAX` (R8, D9). -/
def rdMaxDefault : Nat := 256

/-- A value for `NPROBE_MAX`, to which the specification gives no default (R8). DESIGN CHOICE, log 3. -/
def nprobeMaxDefault : Nat := 16

/-- The free value of the model: the turn taken as the `n`-th when none has been placed. R6 does not fix
which agent moves next, nor R117, R119 and R122 what the transport answers; nothing constrains this
sequence. DESIGN CHOICE, log 1. -/
opaque freeTurn : Nat → Turn

end Sys2Proof.Config
end

