-- ==== Sys2Proof/Machine/State.lean ====
section
/-! DEFINITION. The state of the frame core (R14 to R28), what a transaction can answer, why a transaction
can be refused, and the state after reset (R27). -/

namespace Sys2Proof.Machine

/-- `STATE` (R18). -/
inductive Lifecycle
  | ready | running | stopping | invalid
  deriving DecidableEq, Repr, Inhabited

/-- `PHASE` (R22). The codes 6 and 7 are unreachable and have no value here (U17). -/
inductive Phase
  | idle | guard | openchk | read | extract | errchk
  deriving DecidableEq, Repr, Inhabited

/-- The conditions of R131. The two transport conditions are events of the worker and are never returned. -/
inductive Condition
  | emptyFrame | checksumMismatch | transportReadError | transportInvalid | notReady | notRunning
  deriving DecidableEq, Repr, Inhabited

/-- An event of the output trace: Frame `frame` handed to `PROBES[index]` (R25, R109). -/
structure Dispatch where
  index : Nat
  frame : Frame
  deriving DecidableEq, Repr, Inhabited

/-- The outcomes of one iteration of the inner extraction loop (R98). -/
inductive StepOutcome
  | stopShort
  | stopWait (need : Nat)
  | frame (f : Frame)
  | slip (c : Condition)
  deriving DecidableEq, Repr, Inhabited

/-- What a transaction hands to its issuer (R13, R60, R99): nothing, `ok`, "the caller now waits" (R107), a
word16, match or mismatch, bytes, a Frame, a step outcome, the frames of a drain, the lifecycle state,
or one of the returned errors. -/
inductive Result
  | none
  | ok
  | waiting
  | word (v : Word16)
  | verdict (isMatch : Bool)
  | bytes (b : List Byte)
  | frame (f : Frame)
  | step (o : StepOutcome)
  | frames (fs : List Frame)
  | status (st : Lifecycle)
  | error (c : Condition)
  deriving DecidableEq, Repr, Inhabited

/-- The state. The first six fields are the block's (R14); `out`, `topen`, `tvalid` and `tstream` are the
elements the specification keeps beside it (R25, R26); `rdMax` and `nprobeMax` are the parameters of R8,
written by nothing (log 3); `result`, `turns` and `turnNo` are the model's own (log 1, log 2). -/
structure State where
  /-- `CRCACC` (R17). -/
  crcacc : Word16
  /-- `STATE` (R18). -/
  lifecycle : Lifecycle
  /-- `ABUF`, oldest byte first (R20). -/
  abuf : List Byte
  /-- `PROBES`, in registration order (R21). -/
  probes : List Sink
  /-- `PHASE` (R22). -/
  phase : Phase
  /-- `RDERR` (R23). -/
  rderr : Bool
  /-- `OUT`, oldest event first (R25). -/
  out : List Dispatch
  /-- `TOPEN` (R26). -/
  topen : Bool
  /-- `TVALID` (R26). -/
  tvalid : Bool
  /-- The not-yet-delivered remainder of the inbound stream (R26, R31). -/
  tstream : List Byte
  /-- `RD_MAX` (R8). -/
  rdMax : Nat
  /-- `NPROBE_MAX` (R8). -/
  nprobeMax : Nat
  /-- What the most recent transaction handed to its issuer (log 2). -/
  result : Result
  /-- The turns already placed, the next one first (log 1). -/
  turns : List Turn
  /-- The index of the next free turn (log 1). -/
  turnNo : Nat
  deriving DecidableEq, Repr

/-- No condition stops the block: R130 knows returned errors, worker events and refusals only, and R141
lets every error end its transaction with the block going on. So there is no fault (log 15). -/
inductive Fault
  deriving DecidableEq, Repr

/-- Why a transaction is given no step. The specification assigns no behaviour to a refused input (R13,
R138), so every refusal is safe: nothing can be proved of what follows. -/
inductive Refusal
  /-- `CmdReserved`: a reserved command code (R61). Raised by the three reserved rows. Safe. -/
  | cmdReserved
  /-- `ChkTooShort`: `CHK.VERIFY` on fewer than two bytes (R80, U3). Safe. -/
  | chkTooShort
  /-- `EncodeTooLong`: `ENC` with more than 255 payload bytes (R89a, U6). Safe. -/
  | encodeTooLong
  /-- `DecodeTooShort`: `DEC` on fewer than ten bytes (R89b, U4). Safe. -/
  | decodeTooShort
  /-- `DecodeLengthInconsistent`: `DEC` passes its tests, length byte and length differ (R89c, U5). Safe. -/
  | decodeLengthInconsistent
  /-- `BufferOverflow`: a host push beyond `ABUF_CAP` (R97, U21). Safe. -/
  | bufferOverflow
  /-- `RsyNotReady`: a host `RSY.*` outside `READY` (R95, U22). Safe. -/
  | rsyNotReady
  /-- `ProbeWhileNotReady`: `PROBE` outside `READY` (R109, U7). Safe. -/
  | probeWhileNotReady
  /-- `ProbeRegistryFull`: `PROBE` on a full registry (R109, U21). Safe. -/
  | probeRegistryFull
  /-- `T.open` while the transport is open (U1); raised by an environment turn only. Safe. -/
  | openWhileOpen
  /-- The environment touches the transport while the engine runs (U9, R155). Safe. -/
  | transportOwned
  /-- A step of the block asked for where R108 and R111 do not enable it; `step` never asks (log 9). Safe. -/
  | notEnabled
  /-- A command without the operand it needs (R60, log 8); raised by `step` on such a word. Safe. -/
  | operandMissing
  /-- An instruction without a meaning in this model; no arm of `exec` answers so. Safe. -/
  | notModelled (mnemonic : String)
  deriving DecidableEq, Repr

/-- The state after reset for given parameters (R27). The transport's three elements are unspecified
there; the usual case of R26 is taken (DESIGN CHOICE, log 4). -/
def State.resetWith (rdMax nprobeMax : Nat) : State :=
  { crcacc := Config.crcInit
    lifecycle := .ready
    abuf := []
    probes := []
    phase := .idle
    rderr := false
    out := []
    topen := true
    tvalid := true
    tstream := []
    rdMax := rdMax
    nprobeMax := nprobeMax
    result := .none
    turns := []
    turnNo := 0 }

/-- The state after reset (R27), with `RD_MAX` at the specification's default and `NPROBE_MAX` at the
value log 3 names. -/
def State.reset : State := State.resetWith Config.rdMaxDefault Config.nprobeMaxDefault

end Sys2Proof.Machine
end

