-- ==== Sys2Proof/Machine/Flags.lean ====
section
/-! DEFINITION. The block keeps no flags and no condition codes (R24). What stands here is the codes of its
two enumerated registers (R63), the selector made of them, and the one-bit conditions its operations test. -/

namespace Sys2Proof.Machine

/-- The code of `STATE` (R18, R63). -/
def lifecycleCode : Lifecycle → BitVec 2
  | .ready => 0
  | .running => 1
  | .stopping => 2
  | .invalid => 3

/-- The `STATE` a code names; all four codes are legal (R18). -/
def lifecycleOf (c : BitVec 2) : Lifecycle :=
  match c.toNat with
  | 0 => .ready
  | 1 => .running
  | 2 => .stopping
  | _ => .invalid

/-- The code of `PHASE` (R22, R63). -/
def phaseCode : Phase → BitVec 3
  | .idle => 0
  | .guard => 1
  | .openchk => 2
  | .read => 3
  | .extract => 4
  | .errchk => 5

/-- The `PHASE` a code names; 6 and 7 name none (R22, U17). -/
def phaseOf (c : BitVec 3) : Option Phase :=
  match c.toNat with
  | 0 => some .idle
  | 1 => some .guard
  | 2 => some .openchk
  | 3 => some .read
  | 4 => some .extract
  | 5 => some .errchk
  | _ => none

/-- The code of a condition (R131); 0 is "ok". -/
def conditionCode : Condition → Nat
  | .emptyFrame => 1
  | .checksumMismatch => 2
  | .transportReadError => 3
  | .transportInvalid => 4
  | .notReady => 5
  | .notRunning => 6

/-- The conditions a transaction returns to its issuer (R130 kind 1). -/
def conditionReturned : Condition → Bool
  | .emptyFrame => true
  | .checksumMismatch => true
  | .notReady => true
  | .notRunning => true
  | .transportReadError => false
  | .transportInvalid => false

/-- `SEL = (STATE << 3) | PHASE` (R63). -/
def selOf (s : State) : BitVec 5 := lifecycleCode s.lifecycle ++ phaseCode s.phase

/-- `WORKER`: a worker exists (R22). -/
def workerExists (s : State) : Bool := s.phase != .idle

/-- `SHUTDOWN.DONE` is enabled (R108). -/
def doneEnabled (s : State) : Bool := s.lifecycle == .stopping && s.phase == .idle

/-- `TransportReadError`, as `W.ERRCHK` tests it (R116, R134). -/
def transportReadError (s : State) : Bool := s.rderr

/-- The engine runs, so that the transport is its own (R155, U9). -/
def engineRuns (s : State) : Bool := s.lifecycle == .running || s.lifecycle == .stopping

/-- `ABUF_CAP = 264 + RD_MAX` (R8, R103). -/
def abufCap (s : State) : Nat := 264 + s.rdMax

/-- The two `STOP` outcomes (R98, R99, R115). -/
def isStop : StepOutcome → Bool
  | .stopShort => true
  | .stopWait _ => true
  | .frame _ => false
  | .slip _ => false

end Sys2Proof.Machine
end

