-- ==== Sys2Proof/Machine/Bits.lean ====
section
/-! DEFINITION. Byte order and bit reversal (R11, R34). -/

namespace Sys2Proof.Machine

/-- `le16(lo, hi) = lo | (hi << 8)`: the first byte is the less significant (R11, R34). -/
def le16 (lo hi : Byte) : Word16 := hi ++ lo

/-- `lo8(v) = v[7:0]` (R11). -/
def lo8 (v : Word16) : Byte := v.extractLsb' 0 8

/-- `hi8(v) = v[15:8]` (R11). -/
def hi8 (v : Word16) : Byte := v.extractLsb' 8 8

/-- `reflect_N(v)[i] = v[N-1-i]` (R11). -/
def reflect {n : Nat} (v : BitVec n) : BitVec n := v.reverse

end Sys2Proof.Machine
end

