-- ==== Sys2Proof/Machine/FrameCodec.lean ====
section
/-! DEFINITION. The pure part of the checker and the codec (R50 to R58, R80, R85 to R89): field
assembly, the wire layout, `ENC` and `DEC` as functions of their operand. They read and write no state
(R78, R85), so the decoder of wire words, the host commands and the worker all share them. -/

namespace Sys2Proof.Machine

/-- The code of a named operation byte (R57). Values other than 0x0B are UNVERIFIED (G3, log 14). -/
def opByte : OpName → Byte
  | .readTableBlock => 0x0B
  | .acknowledgeA => 0x02
  | .acknowledgeB => 0x06
  | .writeTableBlock => 0x0C
  | .changeTableName => 0x10
  | .negativeAcknowledge => 0x15
  | .alarmPacket => 0x1E
  | .readObjectData => 0x22
  | .readVariable => 0x62
  | .writeForceVariable => 0x63
  | .autoVariableReport => 0x64
  | .readList => 0x75

/-- The twelve names, in the opcode table's order. -/
def opNames : List OpName :=
  [.readTableBlock, .acknowledgeA, .acknowledgeB, .writeTableBlock, .changeTableName,
   .negativeAcknowledge, .alarmPacket, .readObjectData, .readVariable, .writeForceVariable,
   .autoVariableReport, .readList]

/-- The name of an operation byte, where R57 lists one. -/
def opName (b : Byte) : Option OpName := opNames.find? (fun n => opByte n == b)

/-- The tagged open enumeration of R58: unknown codes keep their raw byte. -/
def opCodeOf (b : Byte) : OpCode :=
  match opName b with
  | some n => .named n
  | none => .unknown b

/-- The byte an operation code stands for (R58: preserved and forwarded). -/
def opCodeByte : OpCode → Byte
  | .named n => opByte n
  | .unknown b => b

/-- The eight header bytes of R51. -/
def headerBytes (dst src : Word16) (len rsv0 rsv1 op : Byte) : List Byte :=
  [lo8 dst, hi8 dst, lo8 src, hi8 src, len, rsv0, rsv1, op]

/-- The checksum bytes, little-endian at the tail (R51, R53). -/
def ckBytes (ck : Word16) : List Byte := [lo8 ck, hi8 ck]

/-- Header and payload of a Frame, every field as it stands in the record: what the checksum covers. -/
def frameBody (f : Frame) : List Byte :=
  headerBytes f.dst f.src f.len f.rsv0 f.rsv1 f.op ++ f.payload

/-- A Frame laid out on the wire (R51), every field as it stands in the record. -/
def frameBytes (f : Frame) : List Byte := frameBody f ++ ckBytes f.ck

/-- The wire frame with operation byte `op` and the given free fields: length and checksum as R51 and
R55 fix them. -/
def wireFrame (op : Byte) (w : WireFields) : Frame :=
  let len := BitVec.ofNat 8 w.payload.length
  { dst := w.dst, src := w.src, len := len, rsv0 := w.rsv0, rsv1 := w.rsv1, op := op
    payload := w.payload
    ck := crc16 (headerBytes w.dst w.src len w.rsv0 w.rsv1 op ++ w.payload) }

/-- The free fields of a Frame. -/
def wireFields (f : Frame) : WireFields :=
  { dst := f.dst, src := f.src, rsv0 := f.rsv0, rsv1 := f.rsv1, payload := f.payload }

/-- The Frame `ENC` writes for its operand (R86): only `dst`, `src`, `op` and `payload` are used, the
reserved bytes are zero (R56), length and checksum are recomputed. -/
def normalised (f : Frame) : Frame :=
  wireFrame f.op { wireFields f with rsv0 := 0, rsv1 := 0 }

/-- `ENC f` (R86); no value for more than 255 payload bytes (R89a). -/
def encFrame (f : Frame) : Option (List Byte) :=
  if f.payload.length > Config.maxPayload then none else some (frameBytes (normalised f))

/-- The checksum field of an operand of at least two bytes (R53). -/
def wireCk (b : List Byte) : Word16 := le16 (b.getD (b.length - 2) 0) (b.getD (b.length - 1) 0)

/-- The bytes the checksum covers: all but the last two (R53, R80). -/
def checkedBody (b : List Byte) : List Byte := b.take (b.length - 2)

/-- The compare form of the checker (R80): `match` is true. -/
def checksumMatches (b : List Byte) : Bool := crc16 (checkedBody b) == wireCk b

/-- The verdicts of `DEC`: a Frame, one of its two errors, or one of its two refusals (R87, R89). -/
inductive DecVerdict
  | frame (f : Frame)
  | emptyFrame
  | checksumMismatch
  | tooShort
  | lengthInconsistent
  deriving DecidableEq, Repr

/-- The declared payload length of a buffer: the byte at offset 4 (R54). Asked for only where the buffer
holds ten bytes or more. -/
def declaredLength (b : List Byte) : Nat := (b.getD Config.lenOff 0).toNat

/-- `frame_length = declared_length + 10`, without wrap-around (R54, R62). -/
def frameLength (b : List Byte) : Nat := declaredLength b + Config.minFrame

/-- Header, payload and checksum assembled from the bytes of a frame (R52, R53, R55, R87 step 4). -/
def parseFrame (b : List Byte) : Frame :=
  { dst := le16 (b.getD 0 0) (b.getD 1 0)
    src := le16 (b.getD 2 0) (b.getD 3 0)
    len := b.getD 4 0
    rsv0 := b.getD 5 0
    rsv1 := b.getD 6 0
    op := b.getD 7 0
    payload := (b.drop Config.hdrLen).take (declaredLength b)
    ck := wireCk b }

/-- `DEC b` (R87), the tests in the order of R88 and R140(e). -/
def decFrame (b : List Byte) : DecVerdict :=
  if b.length < Config.minFrame then .tooShort
  else if b.all (fun x => x == 0) then .emptyFrame
  else if checksumMatches b = false then .checksumMismatch
  else if frameLength b ≠ b.length then .lengthInconsistent
  else .frame (parseFrame b)

/-- The zero frame of R93. -/
def isZeroFrame (f : Frame) : Bool :=
  f.dst == 0 && f.src == 0 && f.op == 0 && f.payload.isEmpty

end Sys2Proof.Machine
end

