-- ==== Sys2Proof/Machine/Ops.lean ====
section
/-! DEFINITION. The named operations over the state: ending a transaction, the buffer primitives (R12), the
registers, the output trace, the transport requests (R117 to R122), and one iteration of the inner
extraction loop (R98), which the host's and the worker's steps share. -/

namespace Sys2Proof.Machine

/-- The answer of every operation. -/
abbrev Answer := Host.Outcome State Fault Refusal

/-- End a transaction with a result (R13). -/
def State.ret (s : State) (r : Result) : State := { s with result := r }

/-- `raise E` (R12): end the transaction with error `E`, handed to the issuer, nothing else written (R130,
R141). This is all that taking an error is: no state is saved, no mode switched, no handler entered. There is
no return from it either: normal operation resumes by itself (R142). -/
def State.raise (s : State) (c : Condition) : State := s.ret (.error c)

/-! ### The buffer (R12, R32) -/

/-- `MemRead(a, n) = ABUF[a..a+n)`; asked for only where `a + n <= |ABUF|`. -/
def State.memRead (s : State) (a n : Nat) : List Byte := (s.abuf.drop a).take n

/-- `BufAppend(s)`. -/
def State.bufAppend (s : State) (b : List Byte) : State := { s with abuf := s.abuf ++ b }

/-- `BufDrop(n)`; performed only where `n <= |ABUF|`. -/
def State.bufDrop (s : State) (n : Nat) : State := { s with abuf := s.abuf.drop n }

/-- `BufClear()`. -/
def State.bufClear (s : State) : State := { s with abuf := [] }

/-! ### Registers and trace -/

/-- `CRCACC <- v`. -/
def State.setCrcacc (s : State) (v : Word16) : State := { s with crcacc := v }

/-- `STATE <- v`. -/
def State.setLifecycle (s : State) (v : Lifecycle) : State := { s with lifecycle := v }

/-- `PHASE <- v`. -/
def State.setPhase (s : State) (v : Phase) : State := { s with phase := v }

/-- `RDERR <- v`. -/
def State.setRderr (s : State) (v : Bool) : State := { s with rderr := v }

/-- `PROBES <- PROBES ++ [k]` (R109). -/
def State.addProbe (s : State) (k : Sink) : State := { s with probes := s.probes ++ [k] }

/-- The events `Dispatch(0, f), ..., Dispatch(P-1, f)` of one confirmed frame, in registration order (R41,
R98). -/
def dispatches (probes : List Sink) (f : Frame) : List Dispatch :=
  (List.range probes.length).map (fun i => { index := i, frame := f })

/-- Emit one `Dispatch` per registered sink (R25, R98). -/
def State.dispatchAll (s : State) (f : Frame) : State :=
  { s with out := s.out ++ dispatches s.probes f }

/-! ### The transport (R117 to R122) -/

/-- `T.is_open()` (R121). -/
def State.tIsOpen (s : State) : Bool := s.topen

/-- `T.is_valid()` (R122). -/
def State.tIsValid (s : State) : Bool := s.tvalid

/-- `T.open()` on a transport that is not open (R117): success is the transport's affair. A permanently invalid
transport may answer with success too: the constraint in R122's words is dropped (DESIGN CHOICE, log 20). What
was not delivered before the close stays on the stream (DESIGN CHOICE, log 21). -/
def State.tOpen (s : State) (ok : Bool) : State := { s with topen := ok }

/-- `T.close()` (R118). The undelivered bytes stay on the stream (DESIGN CHOICE, log 21). -/
def State.tClose (s : State) : State := { s with topen := false }

/-- The bytes a `T.read(k)` delivers when the transport offers `n`: the next bytes of the stream, at most
`k` (R31, R119). -/
def State.tReadData (s : State) (k n : Nat) : List Byte := s.tstream.take (min n k)

/-- The stream after that read: what was delivered is never delivered again (R31). -/
def State.tReadRest (s : State) (k n : Nat) : State :=
  { s with tstream := s.tstream.drop (min n k) }

/-- Bytes arrive on the inbound stream, in order (R30, R31), whether or not the transport is open (DESIGN
CHOICE, log 21). -/
def State.tArrive (s : State) (b : List Byte) : State := { s with tstream := s.tstream ++ b }

/-- The transport becomes permanently invalid (R122). -/
def State.tExhaust (s : State) : State := { s with tvalid := false }

/-- A request at which the transport becomes permanently invalid where `dies` says so (R122, U19): never valid
again. -/
def State.tDies (s : State) (dies : Bool) : State := { s with tvalid := s.tvalid && !dies }

/-! ### The inner extraction loop (R98) -/

/-- One iteration: its outcome and the state after it. `DEC`'s refusals cannot occur, since the candidate
has exactly the length its offset-4 byte declares (R98, R89); they are handed on (log 13). -/
def resyncStep (s : State) : Except Refusal (StepOutcome × State) :=
  if s.abuf.length < Config.minFrame then .ok (.stopShort, s)
  else if s.abuf.length < frameLength s.abuf then .ok (.stopWait (frameLength s.abuf), s)
  else
    match decFrame (s.memRead 0 (frameLength s.abuf)) with
    | .frame f => .ok (.frame f, (s.dispatchAll f).bufDrop (frameLength s.abuf))
    | .emptyFrame => .ok (.slip .emptyFrame, s.bufDrop 1)
    | .checksumMismatch => .ok (.slip .checksumMismatch, s.bufDrop 1)
    | .tooShort => .error .decodeTooShort
    | .lengthInconsistent => .error .decodeLengthInconsistent

/-- Iterations until the loop stops, with the frames confirmed so far in `acc` (R99). -/
def drainLoop : Nat → State → List Frame → Except Refusal (List Frame × State)
  | 0, s, acc => .ok (acc, s)
  | fuel + 1, s, acc =>
    match resyncStep s with
    | .error r => .error r
    | .ok (.stopShort, s') => .ok (acc, s')
    | .ok (.stopWait _, s') => .ok (acc, s')
    | .ok (.frame f, s') => drainLoop fuel s' (acc ++ [f])
    | .ok (.slip _, s') => drainLoop fuel s' acc

/-- The whole inner loop: at most one iteration per buffered byte before a stop (R100 item 8). -/
def drain (s : State) : Except Refusal (List Frame × State) :=
  drainLoop (s.abuf.length + 1) s []

/-- `RSY.PUSH` (R97): append, unless the capacity would be exceeded. -/
def pushBytes (s : State) (b : List Byte) : Except Refusal State :=
  if abufCap s < s.abuf.length + b.length then .error .bufferOverflow else .ok (s.bufAppend b)

end Sys2Proof.Machine
end

