-- ==== Sys2Proof/Machine/Operands.lean ====
section
/-! DEFINITION. The operand forms and the conditions on them that R60 and R138 give, and the expansions of
the pseudo-operations into commands (R65). -/

namespace Sys2Proof.Machine

/-- `CHK.VERIFY` needs two checksum bytes (R80). -/
def checkOperandFits (b : List Byte) : Bool := Config.ckLen ≤ b.length

/-- A host `RSY.*` command, performed only while `STATE = READY` (R95). -/
def whenReady (s : State) (a : Answer) : Answer :=
  if s.lifecycle = .ready then a else .refused .rsyNotReady

/-- A worker step, enabled only in its own phase (R111). -/
def whenPhase (p : Phase) (s : State) (a : Answer) : Answer :=
  if s.phase = p then a else .refused .notEnabled

/-- The answer of an operation that may refuse, its result attached to the state. -/
def answerOf {α : Type} (e : Except Refusal α) (k : α → State) : Answer :=
  match e with
  | .ok a => .next (k a)
  | .error r => .refused r

/-- `CRC16 s` as a command sequence (R65): `CRC.CLR; CRC.UPD s0; ...; CRC.GET`. -/
def crc16Expansion (s : List Byte) : List Instr :=
  .crcClr :: s.map Instr.crcUpd ++ [.crcGet]

end Sys2Proof.Machine
end

