-- ==== Sys2Proof/Machine/Codec.lean ====
section
/-! DEFINITION. The codec commands `ENC` (R86) and `DEC` (R87). -/

namespace Sys2Proof.Machine

/-- `ENC f` (R86). -/
def execEnc (f : Frame) (s : State) : Answer :=
  match encFrame f with
  | some b => .next (s.ret (.bytes b))
  | none => .refused .encodeTooLong

/-- `DEC b` (R87). -/
def execDec (b : List Byte) (s : State) : Answer :=
  match decFrame b with
  | .frame f => .next (s.ret (.frame f))
  | .emptyFrame => .next (s.raise .emptyFrame)
  | .checksumMismatch => .next (s.raise .checksumMismatch)
  | .tooShort => .refused .decodeTooShort
  | .lengthInconsistent => .refused .decodeLengthInconsistent

end Sys2Proof.Machine
end

