-- ==== Sys2Proof/Machine/Engine.lean ====
section
/-! DEFINITION. The lifecycle commands: `START` (R106), `SHUTDOWN` (R107), `PROBE` (R109), `STATUS` (R110), and
the reserved command codes (R61). -/

namespace Sys2Proof.Machine

/-- `START` (R106). -/
def execStart (s : State) : Answer :=
  if s.lifecycle = .ready then
    .next (((((s.setLifecycle .running).bufClear).setRderr false).setPhase .guard).ret .ok)
  else .next (s.raise .notReady)

/-- `SHUTDOWN`, request half (R107): the caller now waits for `SHUTDOWN.DONE`. -/
def execShutdown (s : State) : Answer :=
  if s.lifecycle = .running ∨ s.lifecycle = .invalid then
    .next ((s.setLifecycle .stopping).ret .waiting)
  else .next (s.raise .notRunning)

/-- `PROBE k` (R109). -/
def execProbe (k : Sink) (s : State) : Answer :=
  if s.lifecycle ≠ .ready then .refused .probeWhileNotReady
  else if s.probes.length = s.nprobeMax then .refused .probeRegistryFull
  else .next ((s.addProbe k).ret .none)

/-- `STATUS` (R110). -/
def execStatus (s : State) : Answer := .next (s.ret (.status s.lifecycle))

/-- A command word with a reserved code is refused (R61). -/
def refuseReserved (_ : State) : Answer := .refused .cmdReserved

/-- `CMD` = 0x0 (R61). -/
def execReserved0 (s : State) : Answer := refuseReserved s

/-- `CMD` = 0xE (R61). -/
def execReservedE (s : State) : Answer := refuseReserved s

/-- `CMD` = 0xF (R61). -/
def execReservedF (s : State) : Answer := refuseReserved s

end Sys2Proof.Machine
end

