-- ==== Sys2Proof/Machine/Generator.lean ====
section
/-! DEFINITION. The CRC-16 generator and the checksum checker: `CRC.CLR`, `CRC.UPD`, `CRC.GET` (R74 to R76),
`CHK.VERIFY` (R80). -/

namespace Sys2Proof.Machine

/-- `CRC.CLR` (R74). -/
def execCrcClr (s : State) : Answer := .next ((s.setCrcacc Config.crcInit).ret .none)

/-- `CRC.UPD b` (R75). -/
def execCrcUpd (b : Byte) (s : State) : Answer := .next ((s.setCrcacc (crcStep s.crcacc b)).ret .none)

/-- `CRC.GET` (R76). -/
def execCrcGet (s : State) : Answer := .next (s.ret (.word (s.crcacc ^^^ Config.crcXorOut)))

/-- `CHK.VERIFY b` (R80). -/
def execChkVerify (b : List Byte) (s : State) : Answer :=
  if checkOperandFits b then .next (s.ret (.verdict (checksumMatches b)))
  else .refused .chkTooShort

end Sys2Proof.Machine
end

