-- ==== Sys2Proof/Machine/Resync.lean ====
section
/-! DEFINITION. The host-issued operations of the resynchronizer: `RSY.FLUSH`, `RSY.PUSH`, `RSY.STEP` (R95 to
R98), and the pseudo-operations `CRC16`, `RSY.DRAIN`, `RSY.FEED` (R65, R99), each one transaction of the
model with the effect of its expansion (log 11). -/

namespace Sys2Proof.Machine

/-- `RSY.FLUSH` (R96). -/
def execRsyFlush (s : State) : Answer := whenReady s (.next (s.bufClear.ret .none))

/-- `RSY.PUSH b` (R97). -/
def execRsyPush (b : List Byte) (s : State) : Answer :=
  whenReady s (answerOf (pushBytes s b) (fun s' => s'.ret .none))

/-- `RSY.STEP` (R98). -/
def execRsyStep (s : State) : Answer :=
  whenReady s (answerOf (resyncStep s) (fun p => p.2.ret (.step p.1)))

/-- `CRC16 b` (R65): `CRC.CLR`, one `CRC.UPD` per byte, `CRC.GET`. -/
def execCrc16 (b : List Byte) (s : State) : Answer :=
  .next ((s.setCrcacc (crcFold Config.crcInit b)).ret
    (.word (crcFold Config.crcInit b ^^^ Config.crcXorOut)))

/-- `RSY.DRAIN` (R99): its result is the frames confirmed, in order. -/
def execRsyDrain (s : State) : Answer :=
  whenReady s (answerOf (drain s) (fun p => p.2.ret (.frames p.1)))

/-- `RSY.FEED b` (R65): `RSY.PUSH b; RSY.DRAIN`. -/
def execRsyFeed (b : List Byte) (s : State) : Answer :=
  whenReady s (answerOf ((pushBytes s b).bind drain) (fun p => p.2.ret (.frames p.1)))

end Sys2Proof.Machine
end

