-- ==== Sys2Proof/Machine/Wire.lean ====
section
/-! DEFINITION. The wire rows of the opcode table: a frame arrives on the inbound stream (R30, R31, R51). The
operation byte never changes what the block does (R58), so the OPBYTE rows do what `FRAME` does, each with its
own byte at offset 7 (DESIGN CHOICE, log 6). -/

namespace Sys2Proof.Machine

/-- Bytes join the undelivered remainder of the inbound stream; nobody is told (R31). A closed
transport keeps them for later reads (DESIGN CHOICE, log 21). -/
def arriveBytes (b : List Byte) (s : State) : Answer := .next ((s.tArrive b).ret .none)

/-- A frame with operation byte `n` and the given free fields arrives. -/
def arriveOp (n : OpName) (w : WireFields) (s : State) : Answer :=
  arriveBytes (frameBytes (wireFrame (opByte n) w)) s

/-- `FRAME` (R51): the frame's bytes arrive as they lie on the wire. -/
def execFrame (f : Frame) (s : State) : Answer := arriveBytes (frameBytes f) s

/-- `OP.read_table_block` (R57). -/
def execOpReadTableBlock (w : WireFields) (s : State) : Answer := arriveOp .readTableBlock w s

/-- `OP.acknowledge_a` (R57). -/
def execOpAcknowledgeA (w : WireFields) (s : State) : Answer := arriveOp .acknowledgeA w s

/-- `OP.acknowledge_b` (R57). -/
def execOpAcknowledgeB (w : WireFields) (s : State) : Answer := arriveOp .acknowledgeB w s

/-- `OP.write_table_block` (R57). -/
def execOpWriteTableBlock (w : WireFields) (s : State) : Answer := arriveOp .writeTableBlock w s

/-- `OP.change_table_name` (R57). -/
def execOpChangeTableName (w : WireFields) (s : State) : Answer := arriveOp .changeTableName w s

/-- `OP.negative_acknowledge` (R57). -/
def execOpNegativeAcknowledge (w : WireFields) (s : State) : Answer := arriveOp .negativeAcknowledge w s

/-- `OP.alarm_packet` (R57). -/
def execOpAlarmPacket (w : WireFields) (s : State) : Answer := arriveOp .alarmPacket w s

/-- `OP.read_object_data` (R57). -/
def execOpReadObjectData (w : WireFields) (s : State) : Answer := arriveOp .readObjectData w s

/-- `OP.read_variable` (R57). -/
def execOpReadVariable (w : WireFields) (s : State) : Answer := arriveOp .readVariable w s

/-- `OP.write_force_variable` (R57). -/
def execOpWriteForceVariable (w : WireFields) (s : State) : Answer := arriveOp .writeForceVariable w s

/-- `OP.auto_variable_report` (R57). -/
def execOpAutoVariableReport (w : WireFields) (s : State) : Answer := arriveOp .autoVariableReport w s

/-- `OP.read_list` (R57). -/
def execOpReadList (w : WireFields) (s : State) : Answer := arriveOp .readList w s

end Sys2Proof.Machine
end

