-- ==== Sys2Proof/Machine/Worker.lean ====
section
/-! DEFINITION. The block's own steps: `SHUTDOWN.DONE` (R108) and the worker's five phases (R111 to R116). A
worker step hands nothing to anyone, so its result is `none` (R98, R130). -/

namespace Sys2Proof.Machine

/-- `SHUTDOWN.DONE`, completion half (R108): the waiting `SHUTDOWN` returns `ok`. -/
def execShutdownDone (s : State) : Answer :=
  if doneEnabled s then .next ((s.setLifecycle .ready).ret .ok) else .refused .notEnabled

/-- `W.GUARD` (R112): cancellation first, then validity (R140b). -/
def execWGuard (s : State) : Answer :=
  whenPhase .guard s <| .next <|
    if s.lifecycle ≠ .running then (s.setPhase .idle).ret .none
    else if s.tIsValid = false then ((s.setLifecycle .invalid).setPhase .idle).ret .none
    else (s.setPhase .openchk).ret .none

/-- `W.OPENCHK` (R113), `ok` the transport's answer to `T.open` and `dies` whether it becomes permanently invalid
there: the buffer is cleared because the transport was found closed, whether or not the open succeeds (C7). With
an open transport nothing is requested and neither answer is used. -/
def execWOpenchk (ok : Bool) (s : State) (dies : Bool := false) : Answer :=
  whenPhase .openchk s <| .next <|
    (if s.tIsOpen = false then ((s.bufClear.tOpen ok).tDies dies).setPhase .read else s.setPhase .read).ret .none

/-- `W.READ` (R114), the transport offering `n` bytes with error bit `err`; `dies` says whether it becomes
permanently invalid at this read, as at the end of its data (R122). -/
def execWRead (n : Nat) (err : Bool) (s : State) (dies : Bool := false) : Answer :=
  whenPhase .read s <| .next <|
    (((((s.tReadRest s.rdMax n).tDies dies).bufAppend (s.tReadData s.rdMax n)).setRderr err).setPhase
      .extract).ret .none

/-- `W.EXTRACT` (R115): one iteration of the inner loop; a `STOP` outcome ends it. -/
def execWExtract (s : State) : Answer :=
  whenPhase .extract s <|
    answerOf (resyncStep s) (fun p => (if isStop p.1 then p.2.setPhase .errchk else p.2).ret .none)

/-- `W.ERRCHK` (R116): close the transport after a read error; `dies` says whether it becomes permanently invalid
at that close, and is not used where nothing is requested. -/
def execWErrchk (s : State) (dies : Bool := false) : Answer :=
  whenPhase .errchk s <| .next <|
    ((if transportReadError s then s.tClose.tDies dies else s).setPhase .guard).ret .none

end Sys2Proof.Machine
end

