-- ==== Sys2Proof/Machine/Dispatch.lean ====
section
/-! DEFINITION. One arm per constructor of `Instr`, each one direct call of its meaning. -/

namespace Sys2Proof.Machine

def exec (i : Instr) (s : State) : Host.Outcome State Fault Refusal :=
  match i with
  | .crcClr => Sys2Proof.Machine.execCrcClr s
  | .crcUpd b => Sys2Proof.Machine.execCrcUpd b s
  | .crcGet => Sys2Proof.Machine.execCrcGet s
  | .chkVerify b => Sys2Proof.Machine.execChkVerify b s
  | .enc f => Sys2Proof.Machine.execEnc f s
  | .dec b => Sys2Proof.Machine.execDec b s
  | .rsyFlush => Sys2Proof.Machine.execRsyFlush s
  | .rsyPush b => Sys2Proof.Machine.execRsyPush b s
  | .rsyStep => Sys2Proof.Machine.execRsyStep s
  | .start => Sys2Proof.Machine.execStart s
  | .shutdown => Sys2Proof.Machine.execShutdown s
  | .probe k => Sys2Proof.Machine.execProbe k s
  | .status => Sys2Proof.Machine.execStatus s
  | .reserved0 => Sys2Proof.Machine.execReserved0 s
  | .reservedE => Sys2Proof.Machine.execReservedE s
  | .reservedF => Sys2Proof.Machine.execReservedF s
  | .shutdownDone => Sys2Proof.Machine.execShutdownDone s
  | .wGuard => Sys2Proof.Machine.execWGuard s
  | .wOpenchk ok d => Sys2Proof.Machine.execWOpenchk ok s d
  | .wRead n err d => Sys2Proof.Machine.execWRead n err s d
  | .wExtract => Sys2Proof.Machine.execWExtract s
  | .wErrchk d => Sys2Proof.Machine.execWErrchk s d
  | .crc16 b => Sys2Proof.Machine.execCrc16 b s
  | .rsyDrain => Sys2Proof.Machine.execRsyDrain s
  | .rsyFeed b => Sys2Proof.Machine.execRsyFeed b s
  | .frame f => Sys2Proof.Machine.execFrame f s
  | .opReadTableBlock w => Sys2Proof.Machine.execOpReadTableBlock w s
  | .opAcknowledgeA w => Sys2Proof.Machine.execOpAcknowledgeA w s
  | .opAcknowledgeB w => Sys2Proof.Machine.execOpAcknowledgeB w s
  | .opWriteTableBlock w => Sys2Proof.Machine.execOpWriteTableBlock w s
  | .opChangeTableName w => Sys2Proof.Machine.execOpChangeTableName w s
  | .opNegativeAcknowledge w => Sys2Proof.Machine.execOpNegativeAcknowledge w s
  | .opAlarmPacket w => Sys2Proof.Machine.execOpAlarmPacket w s
  | .opReadObjectData w => Sys2Proof.Machine.execOpReadObjectData w s
  | .opReadVariable w => Sys2Proof.Machine.execOpReadVariable w s
  | .opWriteForceVariable w => Sys2Proof.Machine.execOpWriteForceVariable w s
  | .opAutoVariableReport w => Sys2Proof.Machine.execOpAutoVariableReport w s
  | .opReadList w => Sys2Proof.Machine.execOpReadList w s

end Sys2Proof.Machine
end

