-- ==== Sys2Proof/WellFormed.lean ====
section
/-! DEFINITION. Which terms of `Instr` an encoding of the specification can carry. The commands, the
selector steps and the pseudo-operations admit every operand; a wire frame must satisfy the layout rules
of R51 and R55 and be one the block can receive (R93). -/

namespace Sys2Proof

/-- The payload fits the 8-bit length (R51, R86). -/
def payloadFits (payload : List Byte) : Bool := payload.length ≤ Config.maxPayload

/-- A Frame record that lies on the wire as R51 says: `len` counts the payload (R55) and `ck` is the CRC of
header and payload. -/
def frameConsistent (f : Frame) : Bool :=
  payloadFits f.payload && f.len == BitVec.ofNat 8 f.payload.length &&
    f.ck == Machine.crc16 (Machine.frameBody f)

/-- The ten bytes are all zero, so that `DEC` gives `EmptyFrame` and not this frame (R92, R93). -/
def frameAllZero (f : Frame) : Bool := (Machine.frameBytes f).all (fun x => x == 0)

/-- Well-formedness: what the encodings of the opcode table admit. A frame whose operation byte has a
name is spelt by its OPBYTE row, never by `frame`. -/
def wellFormed : Instr → Bool
  | .frame f => frameConsistent f && !frameAllZero f && (Machine.opName f.op).isNone
  | .opReadTableBlock w => payloadFits w.payload
  | .opAcknowledgeA w => payloadFits w.payload
  | .opAcknowledgeB w => payloadFits w.payload
  | .opWriteTableBlock w => payloadFits w.payload
  | .opChangeTableName w => payloadFits w.payload
  | .opNegativeAcknowledge w => payloadFits w.payload
  | .opAlarmPacket w => payloadFits w.payload
  | .opReadObjectData w => payloadFits w.payload
  | .opReadVariable w => payloadFits w.payload
  | .opWriteForceVariable w => payloadFits w.payload
  | .opAutoVariableReport w => payloadFits w.payload
  | .opReadList w => payloadFits w.payload
  | .crcClr => true
  | .crcUpd _ => true
  | .crcGet => true
  | .chkVerify _ => true
  | .enc _ => true
  | .dec _ => true
  | .rsyFlush => true
  | .rsyPush _ => true
  | .rsyStep => true
  | .start => true
  | .shutdown => true
  | .probe _ => true
  | .status => true
  | .reserved0 => true
  | .reservedE => true
  | .reservedF => true
  | .shutdownDone => true
  | .wGuard => true
  | .wOpenchk _ _ => true
  | .wRead _ _ _ => true
  | .wExtract => true
  | .wErrchk _ => true
  | .crc16 _ => true
  | .rsyDrain => true
  | .rsyFeed _ => true

end Sys2Proof
end

