-- ==== Sys2Proof/Decode.lean ====
section
/-! DEFINITION. The decoder, total on every transaction word and rejecting by name, the encoder, and the
reading of a bare opcode-table word. -/

namespace Sys2Proof

/-- Why a word is no instruction: the command's operand is missing (R60); the selector enables nothing
(R63: `PHASE = IDLE` and not `STOPPING`); the selector's phase code is unreachable (R22, U17); the wire
bytes are no frame (R59, R89). -/
inductive DecodeReject
  | operandMissing
  | selIdle
  | selPhaseReserved
  | wireTooShort
  | wireEmptyFrame
  | wireChecksumMismatch
  | wireLengthInconsistent
  deriving DecidableEq, Repr

/-- The command port (R60, R61). A command that needs no operand ignores what accompanies it; one that
needs an operand and finds none of that kind is rejected (DESIGN CHOICE, log 8). -/
def decodeCmd (code : BitVec 4) (operand : Operand) : Except DecodeReject Instr :=
  match code.toNat with
  | 0x1 => .ok .crcClr
  | 0x2 => match operand with
    | .byte b => .ok (.crcUpd b)
    | _ => .error .operandMissing
  | 0x3 => .ok .crcGet
  | 0x4 => match operand with
    | .bytes b => .ok (.chkVerify b)
    | _ => .error .operandMissing
  | 0x5 => match operand with
    | .frame f => .ok (.enc f)
    | _ => .error .operandMissing
  | 0x6 => match operand with
    | .bytes b => .ok (.dec b)
    | _ => .error .operandMissing
  | 0x7 => .ok .rsyFlush
  | 0x8 => match operand with
    | .bytes s => .ok (.rsyPush s)
    | _ => .error .operandMissing
  | 0x9 => .ok .rsyStep
  | 0xA => .ok .start
  | 0xB => .ok .shutdown
  | 0xC => match operand with
    | .sink k => .ok (.probe k)
    | _ => .error .operandMissing
  | 0xD => .ok .status
  | 0x0 => .ok .reserved0
  | 0xE => .ok .reservedE
  | _ => .ok .reservedF

/-- `SEL[2:0]`: the phase code (R63). -/
def selPhase (code : BitVec 5) : BitVec 3 := code.extractLsb' 0 3

/-- `SEL[4:3]`: the state code (R63). -/
def selState (code : BitVec 5) : BitVec 2 := code.extractLsb' 3 2

/-- The selector (R63): a `W.*` step matches on `SEL[2:0]`, `SHUTDOWN.DONE` on all five bits. -/
def decodeSel (code : BitVec 5) (a : TAnswer) : Except DecodeReject Instr :=
  match (selPhase code).toNat with
  | 0 => if code = 0x10 then .ok .shutdownDone else .error .selIdle
  | 1 => .ok .wGuard
  | 2 => .ok (.wOpenchk a.openOk a.dies)
  | 3 => .ok (.wRead a.readLen a.readErr a.dies)
  | 4 => .ok .wExtract
  | 5 => .ok (.wErrchk a.dies)
  | _ => .error .selPhaseReserved

/-- The OPBYTE row a named operation byte belongs to (R57). -/
def opInstr : OpName → WireFields → Instr
  | .readTableBlock, w => .opReadTableBlock w
  | .acknowledgeA, w => .opAcknowledgeA w
  | .acknowledgeB, w => .opAcknowledgeB w
  | .writeTableBlock, w => .opWriteTableBlock w
  | .changeTableName, w => .opChangeTableName w
  | .negativeAcknowledge, w => .opNegativeAcknowledge w
  | .alarmPacket, w => .opAlarmPacket w
  | .readObjectData, w => .opReadObjectData w
  | .readVariable, w => .opReadVariable w
  | .writeForceVariable, w => .opWriteForceVariable w
  | .autoVariableReport, w => .opAutoVariableReport w
  | .readList, w => .opReadList w

/-- The form of a received frame: its OPBYTE row where the operation byte has a name, `FRAME` otherwise
(R57, R58). -/
def frameInstr (f : Frame) : Instr :=
  match Machine.opName f.op with
  | some n => opInstr n (Machine.wireFields f)
  | none => .frame f

/-- The wire (R51, R59): exactly the operands on which `DEC` gives a Frame. -/
def decodeWire (b : List Byte) : Except DecodeReject Instr :=
  match Machine.decFrame b with
  | .frame f => .ok (frameInstr f)
  | .emptyFrame => .error .wireEmptyFrame
  | .checksumMismatch => .error .wireChecksumMismatch
  | .tooShort => .error .wireTooShort
  | .lengthInconsistent => .error .wireLengthInconsistent

/-- The pseudo-operations (R65). `RSY.DRAIN` takes no operand and ignores one. -/
def decodePseudo : PseudoName → List Byte → Instr
  | .crc16, s => .crc16 s
  | .rsyDrain, _ => .rsyDrain
  | .rsyFeed, s => .rsyFeed s

/-- The decoder, total on every transaction word. -/
def decode : TransWord → Except DecodeReject Instr
  | .cmd c o => decodeCmd c o
  | .sel c a => decodeSel c a
  | .wire b => decodeWire b
  | .pseudo n s => .ok (decodePseudo n s)

/-- Answers for a selector step that asks the transport nothing. -/
def noAnswer : TAnswer := { openOk := false, readLen := 0, readErr := false, dies := false }

/-- An OPBYTE row on the wire: the frame of R51 with that byte at offset 7. -/
def encodeOp (n : OpName) (w : WireFields) : TransWord :=
  .wire (Machine.frameBytes (Machine.wireFrame (Machine.opByte n) w))

/-- The encoder: the word of each row of the opcode table. A `W.*` row fixes only `SEL[2:0]`; the state
bits written are those of `RUNNING`. -/
def encode : Instr → TransWord
  | .reserved0 => .cmd 0x0 .none
  | .crcClr => .cmd 0x1 .none
  | .crcUpd b => .cmd 0x2 (.byte b)
  | .crcGet => .cmd 0x3 .none
  | .chkVerify b => .cmd 0x4 (.bytes b)
  | .enc f => .cmd 0x5 (.frame f)
  | .dec b => .cmd 0x6 (.bytes b)
  | .rsyFlush => .cmd 0x7 .none
  | .rsyPush s => .cmd 0x8 (.bytes s)
  | .rsyStep => .cmd 0x9 .none
  | .start => .cmd 0xA .none
  | .shutdown => .cmd 0xB .none
  | .probe k => .cmd 0xC (.sink k)
  | .status => .cmd 0xD .none
  | .reservedE => .cmd 0xE .none
  | .reservedF => .cmd 0xF .none
  | .shutdownDone => .sel 0x10 noAnswer
  | .wGuard => .sel 0x09 noAnswer
  | .wOpenchk ok d => .sel 0x0A { noAnswer with openOk := ok, dies := d }
  | .wRead n err d => .sel 0x0B { noAnswer with readLen := n, readErr := err, dies := d }
  | .wExtract => .sel 0x0C noAnswer
  | .wErrchk d => .sel 0x0D { noAnswer with dies := d }
  | .crc16 s => .pseudo .crc16 s
  | .rsyDrain => .pseudo .rsyDrain []
  | .rsyFeed s => .pseudo .rsyFeed s
  | .frame f => .wire (Machine.frameBytes f)
  | .opReadTableBlock w => encodeOp .readTableBlock w
  | .opAcknowledgeA w => encodeOp .acknowledgeA w
  | .opAcknowledgeB w => encodeOp .acknowledgeB w
  | .opWriteTableBlock w => encodeOp .writeTableBlock w
  | .opChangeTableName w => encodeOp .changeTableName w
  | .opNegativeAcknowledge w => encodeOp .negativeAcknowledge w
  | .opAlarmPacket w => encodeOp .alarmPacket w
  | .opReadObjectData w => encodeOp .readObjectData w
  | .opReadVariable w => encodeOp .readVariable w
  | .opWriteForceVariable w => encodeOp .writeForceVariable w
  | .opAutoVariableReport w => encodeOp .autoVariableReport w
  | .opReadList w => encodeOp .readList w

/-- The shortest operand of zeros a command accepts (R60, R80, R87): what accompanies a bare command code
whose operand words are zero. -/
def zeroOperand (code : Nat) : Operand :=
  match code with
  | 0x2 => .byte 0
  | 0x4 => .bytes (zeros Config.ckLen)
  | 0x5 => .frame ⟨0, 0, 0, 0, 0, 0, [], 0⟩
  | 0x6 => .bytes (zeros Config.minFrame)
  | 0x8 => .bytes []
  | 0xC => .sink 0
  | _ => .none

/-- The word a bare opcode-table number stands for. The four formats are separate code spaces and the
number does not say which it is in, so they are tried in the table's order: a 4-bit command code, then
the selector of `SHUTDOWN.DONE`, then a named operation byte (a frame with every other field zero and
the checksum R51 requires), then any other 5-bit selector (DESIGN CHOICE, log 7). -/
def tableWord (nbits w : Nat) : Option TransWord :=
  let b := w % 2 ^ nbits
  if b < 0x10 then some (.cmd (BitVec.ofNat 4 b) (zeroOperand b))
  else if b = 0x10 then some (.sel 0x10 noAnswer)
  else if b < 0x100 ∧ (Machine.opName (BitVec.ofNat 8 b)).isSome then
    some (.wire (Machine.frameBytes (Machine.wireFrame (BitVec.ofNat 8 b) ⟨0, 0, 0, 0, []⟩)))
  else if b < 0x20 then some (.sel (BitVec.ofNat 5 b) noAnswer)
  else none

/-- The instruction the decoder reads from an opcode-table word. -/
def decodeTableWord (nbits w : Nat) : Option Instr :=
  match tableWord nbits w with
  | some tw => (decode tw).toOption
  | none => none

end Sys2Proof
end

