-- ==== Sys2Proof/Machine/Turns.lean ====
section
/-! DEFINITION. Who moves next and what it brings (R5, R6): taking the next turn, fetching the word a turn
presents, and what a turn does whose word is no instruction. -/

namespace Sys2Proof.Machine

/-- The next turn and the state with it taken: the oldest placed turn, or the free value where none is
placed (log 1). -/
def takeTurn (s : State) : Turn × State :=
  match s.turns with
  | t :: rest => (t, { s with turns := rest })
  | [] => (Config.freeTurn s.turnNo, { s with turnNo := s.turnNo + 1 })

/-- The transaction word a turn presents. The block's own turn presents the selector (R63); an environment
turn presents none. -/
def fetchWord (t : Turn) (s : State) : Option TransWord :=
  match t with
  | .host c o => some (.cmd c o)
  | .hostPseudo n b => some (.pseudo n b)
  | .block a => some (.sel (selOf s) a)
  | .wire b => some (.wire b)
  | .env _ => none

/-- What the environment does to the transport by itself. While the engine runs the transport is its own
(U9), and opening an open transport has no meaning (U1); becoming invalid is always possible (U19). An open may succeed
on a permanently invalid transport too (DESIGN CHOICE, log 20). -/
def envMove (e : EnvEvent) (s : State) : Answer :=
  match e with
  | .exhaustT => .next (s.tExhaust.ret .none)
  | .openT ok =>
    if engineRuns s then .refused .transportOwned
    else if s.tIsOpen then .refused .openWhileOpen
    else .next ((s.tOpen ok).ret .none)
  | .closeT => if engineRuns s then .refused .transportOwned else .next (s.tClose.ret .none)
  | .readT n => if engineRuns s then .refused .transportOwned else .next ((s.tReadRest n n).ret .none)

/-- A turn whose word is no instruction: a command without its operand is refused (log 8); a block turn
with nothing enabled does nothing (R151, log 9); bytes that are no frame arrive like any others (R59). -/
def noInstruction (t : Turn) (s : State) : Answer :=
  match t with
  | .host _ _ => .refused .operandMissing
  | .hostPseudo _ _ => .refused .operandMissing
  | .block _ => .next (s.ret .none)
  | .wire b => arriveBytes b s
  | .env e => envMove e s

/-- Place the turn that presents a transaction word in front of the others. A selector word is presented by
the state itself, so `STATE` and `PHASE` are set to what it names. -/
def placeWord (s : State) (w : TransWord) : State :=
  match w with
  | .cmd c o => { s with turns := .host c o :: s.turns }
  | .pseudo n b => { s with turns := .hostPseudo n b :: s.turns }
  | .wire b => { s with turns := .wire b :: s.turns }
  | .sel c a =>
    match phaseOf (selPhase c) with
    | some p =>
      { s with lifecycle := lifecycleOf (selState c), phase := p, turns := .block a :: s.turns }
    | none => s

end Sys2Proof.Machine
end

