-- ==== Sys2Proof/Machine/Step.lean ====
section
/-! DEFINITION. One transaction of the machine (R6), and placing a table word where the step fetches. -/

namespace Sys2Proof.Machine

/-- One transaction: take the next turn, fetch and decode its word, run the instruction. -/
def step (s : State) : Host.Outcome State Fault Refusal :=
  match fetchWord (takeTurn s).1 (takeTurn s).2 with
  | none => noInstruction (takeTurn s).1 (takeTurn s).2
  | some w =>
    match decode w with
    | .ok i => exec i (takeTurn s).2
    | .error _ => noInstruction (takeTurn s).1 (takeTurn s).2

/-- `s` with the instruction of a table word placed as the next turn (log 1, log 7). -/
def State.withFetchWord (s : State) (nbits w : Nat) : State :=
  match tableWord nbits w with
  | some tw => placeWord s tw
  | none => s

end Sys2Proof.Machine
end

