-- ==== Sys2Proof/Safety.lean ====
section
/-! DEFINITION. The vocabulary of the claims: the invariant of the reachable states (R29), what a run of
commands answers, and the streams and premises of the convergence property (R104). -/

namespace Sys2Proof.Machine

/-- The invariant of R29, with the bounds of R8 and R21. Items 5 and 7 of R29 hold by the type of `phase`;
item 4 puts no condition on `STOPPING`. -/
structure Inv (s : State) : Prop where
  /-- R29 item 1. -/
  ready_idle : s.lifecycle = .ready → s.phase = .idle
  /-- R29 item 2. -/
  running_worker : s.lifecycle = .running → s.phase ≠ .idle
  /-- R29 item 3. -/
  invalid_idle : s.lifecycle = .invalid → s.phase = .idle
  /-- R29 item 6, the capacity. -/
  abuf_cap : s.abuf.length ≤ abufCap s
  /-- R29 item 6, outside the inner loop. -/
  abuf_outside : s.phase ≠ .idle → s.phase ≠ .extract → s.abuf.length ≤ 264
  /-- R21. -/
  probes_bound : s.probes.length ≤ s.nprobeMax
  /-- R8. -/
  rdMax_pos : 1 ≤ s.rdMax

/-- Apply a change to the next state of an answer; refusals stay as they are. -/
def onNext (f : State → State) : Answer → Answer
  | .next t => .next (f t)
  | .fault r => .fault r
  | .refused r => .refused r

/-- The next state of an answer, if it has one. -/
def nextOf : Answer → Option State
  | .next t => some t
  | .fault _ => none
  | .refused _ => none

/-- Why an answer is refused, if it is. -/
def refusalOf : Answer → Option Refusal
  | .next _ => none
  | .fault _ => none
  | .refused r => some r

/-- Run instructions one after the other, stopping at the first that gives no next state. -/
def execAll : List Instr → State → Answer
  | [], s => .next s
  | i :: is, s =>
    match exec i s with
    | .next t => execAll is t
    | .fault r => .fault r
    | .refused r => .refused r

/-- Run instructions one after the other; what each hands out and the last state, if all give a next state. -/
def execTrace : List Instr → State → Option (List Result × State)
  | [], s => some ([], s)
  | i :: is, s => (nextOf (exec i s)).bind (fun t =>
      (execTrace is t).map (fun p => (t.result :: p.1, p.2)))

/-- The frames a result tells of (R98, R99). -/
def confirmed : Result → List Frame
  | .step (.frame f) => [f]
  | .frames fs => fs
  | _ => []

/-- The outcome a result tells of that is no `STOP` (R98, R102). -/
def progress : Result → List StepOutcome
  | .step o => if isStop o then [] else [o]
  | _ => []

/-- Bytes cut into pushes, each followed by a number of `RSY.STEP`s (R102). -/
def pushesAndSteps (cuts : List (List Byte × Nat)) : List Instr :=
  cuts.flatMap (fun c => .rsyPush c.1 :: List.replicate c.2 .rsyStep)

/-- The instructions that read or write `CRCACC` (R17). -/
def usesCrcacc : Instr → Bool
  | .crcClr => true
  | .crcUpd _ => true
  | .crcGet => true
  | .crc16 _ => true
  | _ => false

/-- The steps only the worker takes (R111). -/
def isWorkerStep : Instr → Bool
  | .wGuard => true
  | .wOpenchk _ _ => true
  | .wRead _ _ _ => true
  | .wExtract => true
  | .wErrchk _ => true
  | _ => false

/-- The host-issued operations of the resynchronizer (R95). -/
def isHostRsy : Instr → Bool
  | .rsyFlush => true
  | .rsyPush _ => true
  | .rsyStep => true
  | .rsyDrain => true
  | .rsyFeed _ => true
  | _ => false

/-- The rows of the wire format. -/
def isWireRow (i : Instr) : Bool :=
  match encode i with
  | .wire _ => true
  | _ => false

/-- The events of several confirmed frames: stream order, and for each frame every sink in registration
order (R41). -/
def emitted (probes : List Sink) (fs : List Frame) : List Dispatch := fs.flatMap (dispatches probes)

/-- The frames among the outcomes of some iterations, in order. -/
def framesOf (os : List StepOutcome) : List Frame :=
  os.filterMap (fun o => match o with
    | .frame f => some f
    | _ => none)

/-- `b` with bit `j` of its byte `k` inverted. -/
def flipBit (b : List Byte) (k j : Nat) : List Byte := b.set k (b.getD k 0 ^^^ (1#8 <<< j))

/-- The bytes `ENC` writes for a Frame with at most 255 payload bytes (R86). -/
def encoded (f : Frame) : List Byte := frameBytes (normalised f)

/-- The stream `g0 ++ F1 ++ g1 ++ ... ++ Fn ++ gn` of R104, each pair a garbage run and the frame behind it.
-/
def wireStream : List (List Byte × Frame) → List Byte → List Byte
  | [], tail => tail
  | (g, f) :: xs, tail => g ++ (encoded f ++ wireStream xs tail)

/-- The window at the front, of the length its own offset-4 byte declares, does not decode to a Frame. -/
def silentFront (b : List Byte) : Bool :=
  match decFrame (b.take (frameLength b)) with
  | .frame _ => false
  | _ => true

/-- No window that starts inside the garbage `g`, with `rest` behind it, decodes to a Frame. -/
def silentIn (g rest : List Byte) : Bool :=
  (List.range g.length).all (fun k => silentFront ((g ++ rest).drop k))

/-- Premise P1 of R104: no window that starts inside garbage decodes. -/
def garbageSilent : List (List Byte × Frame) → List Byte → Bool
  | [], tail => silentIn tail []
  | (g, f) :: xs, tail => silentIn g (encoded f ++ wireStream xs tail) && garbageSilent xs tail

/-- A Frame the round trip of R90 speaks of: at most 255 payload bytes, not the zero frame. -/
def sendable (f : Frame) : Bool := payloadFits f.payload && !isZeroFrame f

end Sys2Proof.Machine
end

