-- ==== Sys2Proof/Certificates/Slice0/Obligations.lean ====
section
/-! DEFINITION. The statements. Each says a next state in full, as the state before with the fields the rule
writes, so that it is its own frame. The field `result` is the model's port for what a transaction hands to its
issuer (log 2); `turns` and `turnNo` hold the schedule (log 1). -/

open Sys2Proof Sys2Proof.Machine

/-! ## The generator -/

/-- R74: `CRC.CLR` is command 0x1, is accepted in every state and clears `CRCACC`. -/
def Obligations.CrcClrClearsAccumulator : Prop :=
  decode (.cmd 0x1 .none) = .ok .crcClr ∧
  ∀ s : State, exec .crcClr s = .next { s with crcacc := 0x0000, result := .none }

/-- R75: `CRC.UPD b` is command 0x2 and writes `crc_step(CRCACC, b)`, with the example of the rule. -/
def Obligations.CrcUpdAppliesOneByteStep : Prop :=
  (∀ b, decode (.cmd 0x2 (.byte b)) = .ok (.crcUpd b)) ∧
  (∀ (b : Byte) (s : State),
    exec (.crcUpd b) s = .next { s with crcacc := crcStep s.crcacc b, result := .none }) ∧
  crcStep 0x0000 0x00 = 0x0000 ∧ crcStep 0x0000 0x31 = 0xD4C1 ∧ crcStep 0xD4C1 0x32 = 0x4594

/-- R76: `CRC.GET` is command 0x3, returns `CRCACC ^ CRC_XOROUT`, which is `CRCACC`, and changes nothing
but the model's result port; with the example of the rule. -/
def Obligations.CrcGetReturnsAccumulator : Prop :=
  decode (.cmd 0x3 .none) = .ok .crcGet ∧
  (∀ s : State, exec .crcGet s = .next { s with result := .word (s.crcacc ^^^ Config.crcXorOut) }) ∧
  (∀ s : State, s.crcacc ^^^ Config.crcXorOut = s.crcacc) ∧
  ∀ s : State, execAll (.crcClr :: [0x31, 0x32, 0x33, 0x34, 0x35, 0x36, 0x37, 0x38, 0x39].map Instr.crcUpd ++
    [.crcGet]) s = .next { s with crcacc := 0xBB3D, result := .word 0xBB3D }

/-- R71 and R72: the most-significant-bit-first procedure with explicit reflection and the
least-significant-bit-first register compute the same function, and 0xA001 is the reflected polynomial. -/
def Obligations.CrcMsbAndLsbFormsAgree : Prop :=
  reflect Config.crcPoly = crcRpoly ∧ ∀ b : List Byte, crc16Msb b = crc16 b

/-- R73 (its table is the specification's own derivation from R72): every entry of the printed table is
`crc_step(0, i)`, and the table-driven step is the byte step. -/
def Obligations.CrcTableStepIsByteStep : Prop :=
  crcTable.length = 256 ∧
  (∀ i < 256, crcTable.getD i 0 = crcStep 0x0000 (BitVec.ofNat 8 i)) ∧
  ∀ (c : Word16) (b : Byte), crcTableStep c b = crcStep c b

/-- The five laws of `CRC16` that R77 derives from R72. -/
def Obligations.CrcLawsHold : Prop :=
  crc16 [] = 0x0000 ∧
  (∀ s t : List Byte, crc16 (s ++ t) = t.foldl crcStep (crc16 s)) ∧
  crcStep 0x0000 0x00 = 0x0000 ∧ (∀ n, crc16 (zeros n) = 0x0000) ∧
  (∀ (n : Nat) (s : List Byte), crc16 (zeros n ++ s) = crc16 s) ∧
  (∀ s : List Byte, crc16 (s ++ [lo8 (crc16 s), hi8 (crc16 s)]) = 0x0000) ∧
  (∀ s t : List Byte, s.length = t.length →
    crc16 (s.zipWith (· ^^^ ·) t) = crc16 s ^^^ crc16 t) ∧
  ∀ (s : List Byte) (k j : Nat), k < s.length → j < 8 → crc16 (flipBit s k j) ≠ crc16 s

/-- R78, R17: what `CRCACC` holds neither changes nor is changed by any instruction but `CRC.CLR`,
`CRC.UPD`, `CRC.GET` and the pseudo-operation made of them. -/
def Obligations.AccumulatorIsPrivateToGenerator : Prop :=
  ∀ (i : Instr) (v : Word16) (s : State), usesCrcacc i = false →
    exec i { s with crcacc := v } = onNext (fun t => { t with crcacc := v }) (exec i s)

/-- R65: the pseudo-operation `CRC16 b` does what `CRC.CLR`, one `CRC.UPD` a byte and `CRC.GET` do one after
the other, and it completes: `CRCACC` and the returned word are `CRC16(b)`. -/
def Obligations.PseudoCrc16IsItsExpansion : Prop :=
  ∀ (b : List Byte) (s : State),
    exec (.crc16 b) s = execAll (.crcClr :: b.map Instr.crcUpd ++ [.crcGet]) s ∧
    exec (.crc16 b) s = .next { s with crcacc := crc16 b, result := .word (crc16 b) }

/-! ## The checker -/

/-- R80: `CHK.VERIFY` is command 0x4; on two bytes or more it compares the CRC of all but the last two bytes
with those two read little-endian, and writes nothing but the model's result port; on fewer it is refused. -/
def Obligations.ChkVerifyComparesTrailingChecksum : Prop :=
  (∀ b, decode (.cmd 0x4 (.bytes b)) = .ok (.chkVerify b)) ∧
  (∀ (body : List Byte) (lo hi : Byte) (s : State),
    exec (.chkVerify (body ++ [lo, hi])) s =
      .next { s with result := .verdict (crc16 body == le16 lo hi) }) ∧
  (∀ (b : List Byte) (s : State), b.length < 2 → exec (.chkVerify b) s = .refused .chkTooShort) ∧
  ∀ (n : Nat) (s : State), exec (.chkVerify (zeros (n + 2))) s = .next { s with result := .verdict true }

/-- R81, the specification's inference: on two bytes or more the checker answers match exactly when the CRC
of all the bytes is zero. -/
def Obligations.ChkVerifyIsZeroResidue : Prop :=
  ∀ (b : List Byte) (s : State), 2 ≤ b.length →
    exec (.chkVerify b) s = .next { s with result := .verdict (crc16 b == 0x0000) }

/-! ## The codec -/

/-- R86, R56, R89a: `ENC` is command 0x5; it writes the header little-endian with the recomputed length and
zero reserved bytes, the payload, and the CRC of both; the stale fields do not matter; more than 255 payload
bytes are refused. -/
def Obligations.EncWritesRecomputedFrame : Prop :=
  (∀ f, decode (.cmd 0x5 (.frame f)) = .ok (.enc f)) ∧
  (∀ (f : Frame) (s : State) (body : List Byte), f.payload.length ≤ 255 →
    body = [lo8 f.dst, hi8 f.dst, lo8 f.src, hi8 f.src, BitVec.ofNat 8 f.payload.length, 0x00, 0x00, f.op]
      ++ f.payload →
    exec (.enc f) s = .next { s with result := .bytes (body ++ [lo8 (crc16 body), hi8 (crc16 body)]) }) ∧
  ∀ (f : Frame) (s : State), 255 < f.payload.length → exec (.enc f) s = .refused .encodeTooLong

/-- R87, R88, R89, R94: `DEC` is command 0x6; it tests in this order: too short, all zero, checksum, length;
then it returns the parsed fields, the reserved bytes verbatim. It writes nothing but the model's result
port. -/
def Obligations.DecTestsInOrderThenParses : Prop :=
  (∀ b, decode (.cmd 0x6 (.bytes b)) = .ok (.dec b)) ∧
  (∀ (b : List Byte) (s : State), b.length < 10 → exec (.dec b) s = .refused .decodeTooShort) ∧
  (∀ (b : List Byte) (s : State), 10 ≤ b.length → (∀ x ∈ b, x = 0x00) →
    exec (.dec b) s = .next { s with result := .error .emptyFrame }) ∧
  (∀ (body : List Byte) (lo hi : Byte) (s : State), 8 ≤ body.length → (∃ x ∈ body ++ [lo, hi], x ≠ 0x00) →
    crc16 body ≠ le16 lo hi →
    exec (.dec (body ++ [lo, hi])) s = .next { s with result := .error .checksumMismatch }) ∧
  (∀ (d0 d1 s0 s1 n r0 r1 o lo hi : Byte) (p : List Byte) (s : State),
    (∃ x ∈ [d0, d1, s0, s1, n, r0, r1, o] ++ p ++ [lo, hi], x ≠ 0x00) →
    crc16 ([d0, d1, s0, s1, n, r0, r1, o] ++ p) = le16 lo hi →
    exec (.dec ([d0, d1, s0, s1, n, r0, r1, o] ++ p ++ [lo, hi])) s =
      if n.toNat = p.length then
        .next { s with result := .frame ⟨le16 d0 d1, le16 s0 s1, n, r0, r1, o, p, le16 lo hi⟩ }
      else .refused .decodeLengthInconsistent)

/-- R90: decoding what `ENC` wrote gives the same destination, source, operation and payload, the length and
checksum recomputed and the reserved bytes zero, for every Frame with at most 255 payload bytes but the zero
frame. -/
def Obligations.EncThenDecRoundTrips : Prop :=
  ∀ (f : Frame) (s : State), f.payload.length ≤ 255 → isZeroFrame f = false →
    ∃ w g, exec (.enc f) s = .next { s with result := .bytes w } ∧
      exec (.dec w) s = .next { s with result := .frame g } ∧
      g.dst = f.dst ∧ g.src = f.src ∧ g.op = f.op ∧ g.payload = f.payload ∧
      g.len.toNat = f.payload.length ∧ g.rsv0 = 0x00 ∧ g.rsv1 = 0x00 ∧
      g.ck = crc16 (w.take (8 + f.payload.length))

/-- R90 (the other direction, the specification's inference) and R163: encoding a decoded Frame gives the
operand back exactly when both reserved bytes were zero; otherwise the checksum written differs from the one
received. -/
def Obligations.DecThenEncKeepsOnlyZeroReserved : Prop :=
  ∀ (b : List Byte) (g : Frame), decFrame b = .frame g →
    (encFrame g = some b ↔ b.getD 5 0 = 0x00 ∧ b.getD 6 0 = 0x00) ∧
    (¬ (b.getD 5 0 = 0x00 ∧ b.getD 6 0 = 0x00) → (normalised g).ck ≠ g.ck)

/-- R91, the specification's inference: inverting any one bit of an encoded frame, checksum bytes included,
makes `DEC` fail with `ChecksumMismatch`, with certainty. -/
def Obligations.SingleBitErrorsAreDetected : Prop :=
  ∀ (f : Frame) (k j : Nat) (s : State), f.payload.length ≤ 255 → k < f.payload.length + 10 → j < 8 →
    exec (.dec (flipBit (encoded f) k j)) s = .next { s with result := .error .checksumMismatch }

/-- R92, and R93, the specification's inference: an all-zero operand of ten bytes or more is `EmptyFrame`;
the zero frame encodes to ten zero bytes, and it is the only Frame whose encoding does not decode. -/
def Obligations.ZeroFrameIsTheOnlyUnreceivable : Prop :=
  (∀ (n : Nat) (s : State), 10 ≤ n →
    exec (.dec (zeros n)) s = .next { s with result := .error .emptyFrame }) ∧
  (∀ f : Frame, isZeroFrame f = true → encFrame f = some (zeros 10)) ∧
  ∀ f : Frame, f.payload.length ≤ 255 →
    (decFrame (encoded f) = .frame (normalised f) ↔ isZeroFrame f = false)

/-- R58: every operation byte survives the decoration with a name, and the name table never gives two names
to one byte. -/
def Obligations.OperationByteIsPreserved : Prop :=
  (∀ b : Byte, opCodeByte (opCodeOf b) = b) ∧ ∀ m n : OpName, opByte m = opByte n → m = n

/-! ## The resynchronizer -/

/-- R96: `RSY.FLUSH` is command 0x7 and, in `READY`, empties the buffer. -/
def Obligations.RsyFlushEmptiesBuffer : Prop :=
  decode (.cmd 0x7 .none) = .ok .rsyFlush ∧
  ∀ s : State, s.lifecycle = .ready → exec .rsyFlush s = .next { s with abuf := [], result := .none }

/-- R97: `RSY.PUSH b` is command 0x8 and, in `READY`, appends within `ABUF_CAP` and is refused beyond it. -/
def Obligations.RsyPushAppendsWithinCapacity : Prop :=
  (∀ b, decode (.cmd 0x8 (.bytes b)) = .ok (.rsyPush b)) ∧
  (∀ (b : List Byte) (s : State), s.lifecycle = .ready → s.abuf.length + b.length ≤ 264 + s.rdMax →
    exec (.rsyPush b) s = .next { s with abuf := s.abuf ++ b, result := .none }) ∧
  ∀ (b : List Byte) (s : State), s.lifecycle = .ready → 264 + s.rdMax < s.abuf.length + b.length →
    exec (.rsyPush b) s = .refused .bufferOverflow

/-- R98: one `RSY.STEP` in `READY`: stop short, stop and wait, dispatch and drop the frame, or slip one byte;
one of the three decode verdicts always applies, so it is never refused. -/
def Obligations.RsyStepExtractsOrSlipsOneByte : Prop :=
  decode (.cmd 0x9 .none) = .ok .rsyStep ∧
  ∀ (s : State) (fl : Nat), s.lifecycle = .ready → fl = (s.abuf.getD 4 0).toNat + 10 →
    (s.abuf.length < 10 → exec .rsyStep s = .next { s with result := .step .stopShort }) ∧
    (10 ≤ s.abuf.length → s.abuf.length < fl →
      exec .rsyStep s = .next { s with result := .step (.stopWait fl) }) ∧
    (fl ≤ s.abuf.length →
      (∃ f, decFrame (s.abuf.take fl) = .frame f ∧
        exec .rsyStep s = .next { s with
          out := s.out ++ (List.range s.probes.length).map (fun i => ⟨i, f⟩)
          abuf := s.abuf.drop fl, result := .step (.frame f) }) ∨
      (decFrame (s.abuf.take fl) = .emptyFrame ∧
        exec .rsyStep s = .next { s with abuf := s.abuf.drop 1, result := .step (.slip .emptyFrame) }) ∨
      (decFrame (s.abuf.take fl) = .checksumMismatch ∧
        exec .rsyStep s = .next { s with abuf := s.abuf.drop 1, result := .step (.slip .checksumMismatch) }))

/-- R95: a host-issued operation of the resynchronizer outside `READY` is refused. -/
def Obligations.HostRsyRefusedOutsideReady : Prop :=
  ∀ (i : Instr) (s : State), isHostRsy i = true → s.lifecycle ≠ .ready → exec i s = .refused .rsyNotReady

/-- R99, R100 item 3, and R103 and R100 item 8, the specification's inferences: in `READY` `RSY.DRAIN`
completes; the buffer left is a tail of the one before, at most 264 bytes long; exactly the dispatches of
the frames it returns are emitted, in order; and a further `RSY.STEP` stops and changes nothing. -/
def Obligations.RsyDrainStopsWithinBound : Prop :=
  ∀ s : State, s.lifecycle = .ready →
    ∃ fs rest, exec .rsyDrain s = .next { s with
        abuf := rest, out := s.out ++ emitted s.probes fs, result := .frames fs } ∧
      rest <:+ s.abuf ∧ rest.length ≤ 264 ∧
      ∃ o, isStop o = true ∧
        exec .rsyStep { s with abuf := rest } = .next { s with abuf := rest, result := .step o }

/-- R99, with R100 item 8, the specification's inference, and the bound of R103, its inference too: `RSY.DRAIN` is the
repetition of `RSY.STEP` until a stop. Some outcomes `os`, at most one a buffered byte, come before the stop, the
step number `m` giving `os[m]`; then a step stops; the drain reaches the same state but for the model's result port,
returns the frames among the outcomes, in order, which is the order of their dispatches, and leaves at most 264
bytes. -/
def Obligations.RsyDrainIsRepeatedStep : Prop :=
  ∀ s : State, s.lifecycle = .ready →
    ∃ (os : List StepOutcome) (o : StepOutcome) (t : State), os.length ≤ s.abuf.length ∧
      (∀ m x, os[m]? = some x → isStop x = false ∧
        ∃ u, execAll (List.replicate (m + 1) .rsyStep) s = .next u ∧ u.result = .step x) ∧
      isStop o = true ∧
      execAll (List.replicate (os.length + 1) .rsyStep) s = .next { t with result := .step o } ∧
      exec .rsyDrain s = .next { t with result := .frames (framesOf os) } ∧
      t.out = s.out ++ emitted s.probes (framesOf os) ∧ t.abuf.length ≤ 264

/-- R65: `RSY.FEED b` is `RSY.PUSH b` followed by `RSY.DRAIN`, and in `READY` within the capacity it completes: of the
bytes buffered and pushed a tail of at most 264 bytes is left (R103, the specification's inference), and exactly
the frames it returns are dispatched. That it returns what its drain returns, and is refused as a whole where one
command of the expansion is, is the model's choice (log 11). -/
def Obligations.RsyFeedIsPushThenDrain : Prop :=
  (∀ (b : List Byte) (s : State), exec (.rsyFeed b) s = execAll [.rsyPush b, .rsyDrain] s) ∧
  ∀ (b : List Byte) (s : State), s.lifecycle = .ready → s.abuf.length + b.length ≤ 264 + s.rdMax →
    ∃ fs rest, exec (.rsyFeed b) s = .next { s with
        abuf := rest, out := s.out ++ emitted s.probes fs, result := .frames fs } ∧
      rest <:+ s.abuf ++ b ∧ rest.length ≤ 264

/-- R102, with the reason the specification infers. Within the capacity: (1) the frames returned by feeding `a` and
then `b` are together those returned by feeding `a ++ b`, and the same state is reached. (2) However the bytes are
cut into pushes, and however many `RSY.STEP`s run after each, once a drain follows, the frames confirmed on the way
are those of one feed of all the bytes, and the same state is reached. (3) The same with enough `RSY.STEP`s in place
of the drain, for the whole sequence of outcomes that are no `STOP`. In (1) and (2)
the states agree up to the model's result port, which holds the last part's frames on one side, all on the other. -/
def Obligations.ChunkingDoesNotMatter : Prop :=
  (∀ (a b : List Byte) (s : State), s.lifecycle = .ready →
    s.abuf.length + a.length + b.length ≤ 264 + s.rdMax →
    ∃ (t u : State) (fa fb : List Frame), exec (.rsyFeed a) s = .next t ∧ t.result = .frames fa ∧
      exec (.rsyFeed b) t = .next u ∧ u.result = .frames fb ∧
      exec (.rsyFeed (a ++ b)) s = .next { u with result := .frames (fa ++ fb) }) ∧
  ∀ (cuts : List (List Byte × Nat)) (bytes : List Byte) (s : State), s.lifecycle = .ready →
    bytes = cuts.flatMap (fun c => c.1) → s.abuf.length + bytes.length ≤ 264 + s.rdMax →
    (∃ (rs : List Result) (t : State), execTrace (pushesAndSteps cuts ++ [.rsyDrain]) s = some (rs, t) ∧
      exec (.rsyFeed bytes) s = .next { t with result := .frames (rs.flatMap confirmed) }) ∧
    ∀ n, s.abuf.length + bytes.length < n → ∃ (rs rs' : List Result) (t : State),
      execTrace (pushesAndSteps cuts ++ List.replicate n .rsyStep) s = some (rs, t) ∧
      execTrace (pushesAndSteps [(bytes, n)]) s = some (rs', t) ∧
      rs.flatMap progress = rs'.flatMap progress

/-- R104, the specification's inference: from a buffer of sendable encoded frames with garbage between them,
none of whose windows decodes (P1), and at least 255 bytes behind the last frame (P2), the drain confirms
exactly those frames, in order and with zero reserved bytes, and leaves only bytes from behind the last of
them. -/
def Obligations.ResyncConvergesOverGarbage : Prop :=
  ∀ (s : State) (xs : List (List Byte × Frame)) (tail : List Byte),
    s.lifecycle = .ready → s.abuf = wireStream xs tail → (∀ x ∈ xs, sendable x.2 = true) →
    garbageSilent xs tail = true → 255 ≤ tail.length →
    ∃ rest, exec .rsyDrain s = .next { s with
        abuf := rest
        out := s.out ++ emitted s.probes (xs.map (fun x => normalised x.2))
        result := .frames (xs.map (fun x => normalised x.2)) } ∧
      rest <:+ tail

/-! ## The lifecycle commands -/

/-- R106, R136: `START` is command 0xA; in `READY` it creates the worker with an empty buffer; elsewhere it
returns `NotReady` and changes nothing but the model's result port. -/
def Obligations.StartCreatesWorkerOrNotReady : Prop :=
  decode (.cmd 0xA .none) = .ok .start ∧
  (∀ s : State, s.lifecycle = .ready → exec .start s = .next { s with
      lifecycle := .running, abuf := [], rderr := false, phase := .guard, result := .ok }) ∧
  ∀ s : State, s.lifecycle ≠ .ready → exec .start s = .next { s with result := .error .notReady }

/-- R107, R137: `SHUTDOWN` is command 0xB; from `RUNNING` and `INVALID` it sets `STOPPING` and its caller
waits; elsewhere it returns `NotRunning` and changes nothing but the model's result port. -/
def Obligations.ShutdownRequestsStopOrNotRunning : Prop :=
  decode (.cmd 0xB .none) = .ok .shutdown ∧
  (∀ s : State, s.lifecycle = .running ∨ s.lifecycle = .invalid →
    exec .shutdown s = .next { s with lifecycle := .stopping, result := .waiting }) ∧
  ∀ s : State, s.lifecycle = .ready ∨ s.lifecycle = .stopping →
    exec .shutdown s = .next { s with result := .error .notRunning }

/-- R108: `SHUTDOWN.DONE` is enabled exactly where `STATE = STOPPING` and `PHASE = IDLE`; there it sets
`READY`, completes the waiting `SHUTDOWN` with `ok` and changes nothing else. -/
def Obligations.ShutdownDoneCompletesWhenWorkerGone : Prop :=
  (∀ s : State, doneEnabled s = true ↔ s.lifecycle = .stopping ∧ s.phase = .idle) ∧
  ∀ s : State, s.lifecycle = .stopping → s.phase = .idle →
    exec .shutdownDone s = .next { s with lifecycle := .ready, result := .ok }

/-- R109: `PROBE k` is command 0xC; it appends to the registry in `READY`, and is refused elsewhere and on a
full registry. -/
def Obligations.ProbeAppendsInReadyOnly : Prop :=
  (∀ k, decode (.cmd 0xC (.sink k)) = .ok (.probe k)) ∧
  (∀ (k : Sink) (s : State), s.lifecycle = .ready → s.probes.length < s.nprobeMax →
    exec (.probe k) s = .next { s with probes := s.probes ++ [k], result := .none }) ∧
  (∀ (k : Sink) (s : State), s.lifecycle ≠ .ready → exec (.probe k) s = .refused .probeWhileNotReady) ∧
  ∀ (k : Sink) (s : State), s.lifecycle = .ready → s.probes.length = s.nprobeMax →
    exec (.probe k) s = .refused .probeRegistryFull

/-- R110: `STATUS` is command 0xD, is accepted always, returns `STATE` and writes nothing but the model's
result port. -/
def Obligations.StatusReturnsState : Prop :=
  decode (.cmd 0xD .none) = .ok .status ∧
  ∀ s : State, exec .status s = .next { s with result := .status s.lifecycle }

/-- R61: a command word with code 0x0, 0xE or 0xF is refused in every state. -/
def Obligations.ReservedCommandsAreRefused : Prop :=
  (∀ o, decode (.cmd 0x0 o) = .ok .reserved0 ∧ decode (.cmd 0xE o) = .ok .reservedE ∧
    decode (.cmd 0xF o) = .ok .reservedF) ∧
  ∀ s : State, exec .reserved0 s = .refused .cmdReserved ∧ exec .reservedE s = .refused .cmdReserved ∧
    exec .reservedF s = .refused .cmdReserved

/-! ## The worker -/

/-- R112: `W.GUARD` exits on cancellation first, then on an invalid transport, which it records, and goes on
otherwise. -/
def Obligations.GuardTestsCancellationThenValidity : Prop :=
  ∀ s : State, s.phase = .guard →
    (s.lifecycle ≠ .running → exec .wGuard s = .next { s with phase := .idle, result := .none }) ∧
    (s.lifecycle = .running → s.tvalid = false →
      exec .wGuard s = .next { s with lifecycle := .invalid, phase := .idle, result := .none }) ∧
    (s.lifecycle = .running → s.tvalid = true →
      exec .wGuard s = .next { s with phase := .openchk, result := .none })

/-- R113, R117: `W.OPENCHK` clears the buffer and attempts an open where it finds the transport closed, whatever
becomes of the attempt, and goes on to the read. The model's choices on the transport: it may become permanently
invalid at that very open (log 5), an open may succeed on an invalid transport (log 20), and the undelivered bytes
stay on the stream (log 21). -/
def Obligations.OpenchkClearsOnClosedTransport : Prop :=
  ∀ (ok dies : Bool) (s : State), s.phase = .openchk →
    (s.topen = false → exec (.wOpenchk ok dies) s = .next { s with
      abuf := [], topen := ok, tvalid := s.tvalid && !dies, phase := .read, result := .none }) ∧
    (s.topen = true → exec (.wOpenchk ok dies) s = .next { s with phase := .read, result := .none })

/-- R114, R119, R31: `W.READ` moves the next bytes of the stream, at most `RD_MAX` of them and in order, to the back
of the buffer, records the error bit and goes on to the extraction; nothing is read twice or lost. The transport
may become permanently invalid at the read or stay as it is (R122, U19); that its fall is an answer of the read is
the model's choice (log 5). -/
def Obligations.ReadMovesStreamBytesInOrder : Prop :=
  ∀ (n : Nat) (err dies : Bool) (s : State), s.phase = .read →
    ∃ data rest, s.tstream = data ++ rest ∧ data.length = min (min n s.rdMax) s.tstream.length ∧
      exec (.wRead n err dies) s = .next { s with
        abuf := s.abuf ++ data, tstream := rest, tvalid := s.tvalid && !dies, rderr := err
        phase := .extract, result := .none }

/-- R115: `W.EXTRACT` is one iteration of the inner loop (the same effect as `RSY.STEP` in `READY`), hands
nothing to anyone, stays in its phase while it makes progress and leaves it on a stop. -/
def Obligations.ExtractIsOneInnerIteration : Prop :=
  ∀ s : State, s.phase = .extract →
    ∃ (o : StepOutcome) (t : State), exec .rsyStep { s with lifecycle := .ready } = .next { t with result := .step o } ∧
      exec .wExtract s = .next { t with
        lifecycle := s.lifecycle, phase := if isStop o then .errchk else .extract, result := .none }

/-- R116, R118: `W.ERRCHK` closes the transport after a read error and returns to the guard. The model's choices on
the transport: it may become permanently invalid at that very close (log 5), and the undelivered bytes stay on the
stream (log 21). -/
def Obligations.ErrchkClosesAfterReadError : Prop :=
  ∀ (dies : Bool) (s : State), s.phase = .errchk →
    (s.rderr = true → exec (.wErrchk dies) s = .next { s with
      topen := false, tvalid := s.tvalid && !dies, phase := .guard, result := .none }) ∧
    (s.rderr = false → exec (.wErrchk dies) s = .next { s with phase := .guard, result := .none })

/-- R111, R63: the block's own turn runs the step its `PHASE` names, or `SHUTDOWN.DONE` where that is enabled,
and where nothing is enabled it does nothing (R151; the model's choice for a turn nobody can use, log 9). -/
def Obligations.BlockTurnRunsThePhasesStep : Prop :=
  ∀ (s : State) (a : TAnswer) (rest : List Turn) (u : State),
    s.turns = .block a :: rest → u = { s with turns := rest } →
    (s.phase = .guard → step s = exec .wGuard u) ∧
    (s.phase = .openchk → step s = exec (.wOpenchk a.openOk a.dies) u) ∧
    (s.phase = .read → step s = exec (.wRead a.readLen a.readErr a.dies) u) ∧
    (s.phase = .extract → step s = exec .wExtract u) ∧
    (s.phase = .errchk → step s = exec (.wErrchk a.dies) u) ∧
    (s.phase = .idle → s.lifecycle = .stopping → step s = exec .shutdownDone u) ∧
    (s.phase = .idle → s.lifecycle ≠ .stopping → step s = .next { u with result := .none })

/-- The model's choice (log 9): a step of the block asked for where R108 and R111 to R116 do not enable it is
refused; `step` never asks. -/
def Obligations.BlockStepsRefusedWhereNotEnabled : Prop :=
  ∀ (s : State) (ok err dies : Bool) (n : Nat),
    (s.phase ≠ .guard → exec .wGuard s = .refused .notEnabled) ∧
    (s.phase ≠ .openchk → exec (.wOpenchk ok dies) s = .refused .notEnabled) ∧
    (s.phase ≠ .read → exec (.wRead n err dies) s = .refused .notEnabled) ∧
    (s.phase ≠ .extract → exec .wExtract s = .refused .notEnabled) ∧
    (s.phase ≠ .errchk → exec (.wErrchk dies) s = .refused .notEnabled) ∧
    (¬ (s.lifecycle = .stopping ∧ s.phase = .idle) → exec .shutdownDone s = .refused .notEnabled)

/-! ## The wire -/

/-- The model's choice (log 6) for the rows of R51, R57 and R58: every wire row appends exactly the bytes of its frame,
its own operation byte among them, to the inbound stream, open or closed (log 21), and changes nothing else. -/
def Obligations.WireRowsAppendTheirFrame : Prop :=
  (∀ (f : Frame) (s : State),
    exec (.frame f) s = .next { s with tstream := s.tstream ++ frameBytes f, result := .none }) ∧
  ∀ (w : WireFields) (s : State) (arrives : Byte → Answer),
    arrives = (fun o =>
      .next { s with tstream := s.tstream ++ frameBytes (wireFrame o w), result := .none }) →
    exec (.opReadTableBlock w) s = arrives 0x0B ∧ exec (.opAcknowledgeA w) s = arrives 0x02 ∧
    exec (.opAcknowledgeB w) s = arrives 0x06 ∧ exec (.opWriteTableBlock w) s = arrives 0x0C ∧
    exec (.opChangeTableName w) s = arrives 0x10 ∧ exec (.opNegativeAcknowledge w) s = arrives 0x15 ∧
    exec (.opAlarmPacket w) s = arrives 0x1E ∧ exec (.opReadObjectData w) s = arrives 0x22 ∧
    exec (.opReadVariable w) s = arrives 0x62 ∧ exec (.opWriteForceVariable w) s = arrives 0x63 ∧
    exec (.opAutoVariableReport w) s = arrives 0x64 ∧ exec (.opReadList w) s = arrives 0x75

/-- R31, R59 on the model's inbound stream (log 6): bytes that arrive join the stream whether or not they are a frame,
and whether or not the transport is open (the model's choice, log 21). -/
def Obligations.AnyArrivingBytesJoinTheStream : Prop :=
  ∀ (s : State) (b : List Byte) (rest : List Turn), s.turns = .wire b :: rest →
    step s = .next { s with tstream := s.tstream ++ b, turns := rest, result := .none }

/-- R51, R34: a frame's wire layout, offset by offset. -/
def Obligations.FrameLayoutIsLittleEndian : Prop :=
  ∀ f : Frame, frameBytes f =
    [f.dst.extractLsb' 0 8, f.dst.extractLsb' 8 8, f.src.extractLsb' 0 8, f.src.extractLsb' 8 8,
     f.len, f.rsv0, f.rsv1, f.op] ++ f.payload ++ [f.ck.extractLsb' 0 8, f.ck.extractLsb' 8 8] ∧
    (frameBytes f).length = f.payload.length + 10

/-! ## Encoding and the step -/

/-- Decode and encode agree on every well-formed instruction (R51, R60, R63, R65). -/
def Obligations.DecodeOfEncodeIsIdentity : Prop :=
  ∀ i : Instr, wellFormed i = true → decode (encode i) = .ok i

/-- Whatever the decoder gives is well formed, and on the wire each word has one meaning: encoding what was
decoded gives the bytes back (R51, R55). -/
def Obligations.WireWordsHaveOneMeaning : Prop :=
  (∀ (w : TransWord) (i : Instr), decode w = .ok i → wellFormed i = true) ∧
  ∀ (b : List Byte) (i : Instr), decode (.wire b) = .ok i → encode i = .wire b

/-- Words written out from the tables of R60, R63, R65 and R51 decode to the instructions they stand for. -/
def Obligations.SampleWordsDecode : Prop :=
  decode (.cmd 0x1 .none) = .ok .crcClr ∧
  decode (.cmd 0xA .none) = .ok .start ∧
  decode (.sel 0b10000 noAnswer) = .ok .shutdownDone ∧
  decode (.sel 0b01001 noAnswer) = .ok .wGuard ∧
  decode (.sel 0b10011 ⟨false, 5, true, false⟩) = .ok (.wRead 5 true false) ∧
  decode (.pseudo .rsyDrain []) = .ok .rsyDrain ∧
  decode (.wire [0x01, 0x00, 0xF1, 0xF1, 0x03, 0x00, 0x00, 0x0B, 0x00, 0x01, 0x01, 0x32, 0x94]) =
    .ok (.opReadTableBlock ⟨0x0001, 0xF1F1, 0x00, 0x00, [0x00, 0x01, 0x01]⟩)

/-- A step takes the next turn and, where the word it presents decodes to an instruction, is that
instruction run on the state with the turn taken. -/
def Obligations.StepRunsTheDecodedInstruction : Prop :=
  ∀ (s : State) (w : TransWord) (i : Instr),
    fetchWord (takeTurn s).1 (takeTurn s).2 = some w → decode w = .ok i →
    step s = exec i (takeTurn s).2 ∧
    (∀ t rest, s.turns = t :: rest → takeTurn s = (t, { s with turns := rest })) ∧
    (s.turns = [] → takeTurn s = (Config.freeTurn s.turnNo, { s with turnNo := s.turnNo + 1 }))

/-- R63, R18, R22: the codes of the two registers, and which selector words name which step: a `W.*` step by
`SEL[2:0]` alone, `SHUTDOWN.DONE` by all five bits. -/
def Obligations.SelectorNamesTheSteps : Prop :=
  (lifecycleCode .ready = 0 ∧ lifecycleCode .running = 1 ∧ lifecycleCode .stopping = 2 ∧
    lifecycleCode .invalid = 3) ∧
  (phaseCode .idle = 0 ∧ phaseCode .guard = 1 ∧ phaseCode .openchk = 2 ∧ phaseCode .read = 3 ∧
    phaseCode .extract = 4 ∧ phaseCode .errchk = 5) ∧
  (∀ s : State, (selOf s).toNat = (lifecycleCode s.lifecycle).toNat * 8 + (phaseCode s.phase).toNat) ∧
  ∀ (c : BitVec 5) (a : TAnswer),
    (c &&& 0x07 = 0x01 → decode (.sel c a) = .ok .wGuard) ∧
    (c &&& 0x07 = 0x02 → decode (.sel c a) = .ok (.wOpenchk a.openOk a.dies)) ∧
    (c &&& 0x07 = 0x03 → decode (.sel c a) = .ok (.wRead a.readLen a.readErr a.dies)) ∧
    (c &&& 0x07 = 0x04 → decode (.sel c a) = .ok .wExtract) ∧
    (c &&& 0x07 = 0x05 → decode (.sel c a) = .ok (.wErrchk a.dies)) ∧
    (decode (.sel c a) = .ok .shutdownDone ↔ c = 0x10)

/-! ## The whole machine -/

/-- R27, R150: the values after reset that the specification gives. -/
def Obligations.ResetValues : Prop :=
  State.reset.lifecycle = .ready ∧ State.reset.abuf = [] ∧ State.reset.probes = [] ∧
  State.reset.phase = .idle ∧ State.reset.rderr = false ∧ State.reset.crcacc = 0x0000 ∧
  State.reset.out = []

/-- The invariant of R29, the specification's inference, with the bounds of R8 and R21, holds after reset,
for every `RD_MAX` of at least one and every `NPROBE_MAX`. -/
def Obligations.ResetMeetsReachableConditions : Prop :=
  ∀ rdMax nprobeMax : Nat, 1 ≤ rdMax → Inv (State.resetWith rdMax nprobeMax)

/-- R29, the specification's inference: every step keeps the invariant of the reachable states, whoever
moves. -/
def Obligations.EveryStepKeepsReachableConditions : Prop :=
  ∀ s t : State, Inv s → step s = .next t → Inv t

/-- R19: the only transitions of `STATE`, and what causes them. -/
def Obligations.OnlyFiveLifecycleTransitions : Prop :=
  (∀ (i : Instr) (s t : State), exec i s = .next t → t.lifecycle ≠ s.lifecycle →
    (i = .start ∧ s.lifecycle = .ready ∧ t.lifecycle = .running) ∨
    (i = .shutdown ∧ s.lifecycle = .running ∧ t.lifecycle = .stopping) ∨
    (i = .shutdown ∧ s.lifecycle = .invalid ∧ t.lifecycle = .stopping) ∨
    (i = .shutdownDone ∧ s.lifecycle = .stopping ∧ t.lifecycle = .ready ∧ s.phase = .idle) ∨
    (i = .wGuard ∧ s.lifecycle = .running ∧ t.lifecycle = .invalid ∧ s.tvalid = false)) ∧
  ∀ s t : State, step s = .next t →
    (s.lifecycle, t.lifecycle) ∈ [(.ready, .ready), (.running, .running), (.stopping, .stopping),
      (.invalid, .invalid), (.ready, .running), (.running, .stopping), (.invalid, .stopping),
      (.stopping, .ready), ((.running, .invalid) : Lifecycle × Lifecycle)]

/-- R25, R41: the output trace only grows, and in one step by whole frames, each handed to every sink in
registration order. -/
def Obligations.OutputGrowsByWholeFrames : Prop :=
  ∀ s t : State, step s = .next t → ∃ fs, t.out = s.out ++ emitted s.probes fs

/-- R42, R124: once the worker is gone while `STOPPING` or `INVALID`, no step dispatches anything. -/
def Obligations.NoDispatchWithoutWorker : Prop :=
  ∀ s t : State, s.phase = .idle → s.lifecycle ≠ .ready → step s = .next t → t.out = s.out

/-- R21, R43, R154: the registry only grows, and only in `READY`. -/
def Obligations.RegistryGrowsOnlyInReady : Prop :=
  ∀ s t : State, step s = .next t →
    t.probes = s.probes ∨ (s.lifecycle = .ready ∧ ∃ k, t.probes = s.probes ++ [k])

/-- R122 and R8: a transport that is permanently invalid never becomes valid again, and no step changes a
parameter (the model holds the parameters in the state, log 3). -/
def Obligations.InvalidityAndParametersPersist : Prop :=
  ∀ s t : State, step s = .next t →
    (s.tvalid = false → t.tvalid = false) ∧ t.rdMax = s.rdMax ∧ t.nprobeMax = s.nprobeMax

/-- R145, R20, R23: `ABUF`, `PHASE`, `RDERR` and `OUT` are written only by the operations that own them. The rest is
the model's rendering: `TOPEN` and `TVALID` change only at a request of the block on the transport, `TVALID` only to
0 and only where the transport says so (log 5); the stream grows by the wire rows (log 6); no instruction touches
the queue of turns (log 1). -/
def Obligations.ElementsWrittenOnlyByOwners : Prop :=
  ∀ (i : Instr) (s t : State), exec i s = .next t →
    (t.abuf ≠ s.abuf →
      i = .start ∨ isWorkerStep i = true ∨ (isHostRsy i = true ∧ s.lifecycle = .ready)) ∧
    (t.phase ≠ s.phase → i = .start ∨ isWorkerStep i = true) ∧
    (t.rderr ≠ s.rderr → i = .start ∨ ∃ n e d, i = .wRead n e d) ∧
    (t.topen ≠ s.topen → (∃ d, i = .wErrchk d) ∨ ∃ ok d, i = .wOpenchk ok d) ∧
    (t.out ≠ s.out → i = .wExtract ∨ (isHostRsy i = true ∧ s.lifecycle = .ready)) ∧
    (t.tstream ≠ s.tstream → isWireRow i = true ∨ ∃ n e d, i = .wRead n e d) ∧
    (t.tvalid ≠ s.tvalid → t.tvalid = false ∧
      ((∃ ok, i = .wOpenchk ok true) ∨ (∃ n e, i = .wRead n e true) ∨ i = .wErrchk true)) ∧
    t.turns = s.turns ∧ t.turnNo = s.turnNo

/-- R12, R130, R141: an instruction that ends with an error writes nothing but the model's result port, and
only the four returned errors are ever handed to an issuer. -/
def Obligations.ErrorsWriteNothing : Prop :=
  ∀ (i : Instr) (s t : State) (c : Condition), exec i s = .next t → t.result = .error c →
    t = { s with result := .error c } ∧
    (c = .emptyFrame ∨ c = .checksumMismatch ∨ c = .notReady ∨ c = .notRunning)

/-- R155, R117, U1, U9: the environment's own transport moves (the model's, log 10): free where the engine does not
run, refused while it runs, an open of an open transport refused; permanent invalidity may strike at any time. An
open may succeed on an invalid transport (log 20), and opening and closing keep the undelivered bytes (log 21). -/
def Obligations.EnvironmentKeepsOffARunningTransport : Prop :=
  ∀ (s u : State) (e : EnvEvent) (rest : List Turn),
    s.turns = .env e :: rest → u = { s with turns := rest, result := .none } →
    (e = .exhaustT → step s = .next { u with tvalid := false }) ∧
    (e ≠ .exhaustT → s.lifecycle = .running ∨ s.lifecycle = .stopping →
      step s = .refused .transportOwned) ∧
    (s.lifecycle = .ready ∨ s.lifecycle = .invalid →
      (e = .closeT → step s = .next { u with topen := false }) ∧
      (∀ n, e = .readT n → step s = .next { u with tstream := s.tstream.drop n }) ∧
      (∀ ok, e = .openT ok → s.topen = false → step s = .next { u with topen := ok }) ∧
      (∀ ok, e = .openT ok → s.topen = true → step s = .refused .openWhileOpen))

/-- R124 and R164, the specification's inferences: from `INVALID` with a dead transport, `SHUTDOWN`, its
completion, `START` and the first guard lead back to `INVALID`, with nothing read and nothing dispatched. -/
def Obligations.DeadTransportCyclesToInvalid : Prop :=
  ∀ s : State, s.lifecycle = .invalid → s.phase = .idle → s.tvalid = false →
    execAll [.shutdown, .shutdownDone, .start, .wGuard] s =
      .next { s with abuf := [], rderr := false, result := .none }

/-- R125: after the request half of `SHUTDOWN` the block's own turns alone bring the worker to its exit:
one read, one extraction and one close at most, so at most `|ABUF| + RD_MAX + 5` steps. -/
def Obligations.ShutdownLatencyIsOneIteration : Prop :=
  ∀ (s : State) (answers : List TAnswer) (rest : List Turn),
    s.lifecycle = .stopping → s.turns = answers.map Turn.block ++ rest →
    s.abuf.length + s.rdMax + 5 ≤ answers.length →
    ∃ n t, n ≤ s.abuf.length + s.rdMax + 5 ∧ Host.Core.run Sys2Proof.core n s = .next t ∧
      t.lifecycle = .stopping ∧ t.phase = .idle
end

