-- ==== Sys2Proof/Laws/Codec.lean ====
section
/-! SUPPORT. The small lemmas of the byte helpers, the wire layout and `DEC`. -/

namespace Sys2Proof.Machine

theorem le16_getLsbD (lo hi : Byte) (i : Nat) :
    (le16 lo hi).getLsbD i = if i < 8 then lo.getLsbD i else hi.getLsbD (i - 8) := by
  have := BitVec.getLsbD_append (x := hi) (y := lo) (i := i)
  simpa only [Bool.cond_eq_ite, le16] using this

theorem lo8_getLsbD (v : Word16) (i : Nat) : (lo8 v).getLsbD i = (decide (i < 8) && v.getLsbD i) := by
  simp [lo8]

theorem hi8_getLsbD (v : Word16) (i : Nat) : (hi8 v).getLsbD i = (decide (i < 8) && v.getLsbD (8 + i)) := by
  simp [hi8]

@[simp] theorem lo8_le16 (a b : Byte) : lo8 (le16 a b) = a := by
  apply BitVec.eq_of_getLsbD_eq
  intro i hi
  simp only [lo8_getLsbD, le16_getLsbD, hi, decide_true, Bool.true_and, if_true]

@[simp] theorem hi8_le16 (a b : Byte) : hi8 (le16 a b) = b := by
  apply BitVec.eq_of_getLsbD_eq
  intro i hi
  rw [hi8_getLsbD, le16_getLsbD]
  simp only [hi, decide_true, Bool.true_and, show ¬ 8 + i < 8 by omega, if_false, Nat.add_sub_cancel_left]

@[simp] theorem le16_lo8_hi8 (v : Word16) : le16 (lo8 v) (hi8 v) = v := by
  apply BitVec.eq_of_getLsbD_eq
  intro i hi
  rw [le16_getLsbD, lo8_getLsbD, hi8_getLsbD]
  by_cases h : i < 8
  · simp [h]
  · simp [h, show i - 8 < 8 by omega, show 8 + (i - 8) = i by omega]

@[simp] theorem headerBytes_length (d s : Word16) (l r0 r1 o : Byte) :
    (headerBytes d s l r0 r1 o).length = 8 := rfl

@[simp] theorem ckBytes_length (c : Word16) : (ckBytes c).length = 2 := rfl

@[simp] theorem frameBody_length (f : Frame) : (frameBody f).length = 8 + f.payload.length := by
  simp [frameBody]

/-- A Frame takes ten bytes more than its payload (R50). -/
@[simp] theorem frameBytes_length (f : Frame) : (frameBytes f).length = f.payload.length + 10 := by
  simp [frameBytes]; omega

@[simp] theorem checkedBody_append_two (b : List Byte) (x y : Byte) : checkedBody (b ++ [x, y]) = b := by
  simp [checkedBody]

@[simp] theorem wireCk_append_two (b : List Byte) (x y : Byte) : wireCk (b ++ [x, y]) = le16 x y := by
  simp [wireCk]

@[simp] theorem checkedBody_frameBytes (f : Frame) : checkedBody (frameBytes f) = frameBody f :=
  checkedBody_append_two _ _ _

@[simp] theorem wireCk_frameBytes (f : Frame) : wireCk (frameBytes f) = f.ck := by
  simp [frameBytes, ckBytes]

@[simp] theorem declaredLength_frameBytes (f : Frame) : declaredLength (frameBytes f) = f.len.toNat := rfl

/-- Reading back what was laid out gives the Frame, where `len` counts the payload (R51, R52, R55). -/
theorem parseFrame_frameBytes (f : Frame) (h : f.len.toNat = f.payload.length) :
    parseFrame (frameBytes f) = f := by
  have hp : ((frameBytes f).drop Config.hdrLen).take f.len.toNat = f.payload := by
    simp [frameBytes, frameBody, headerBytes, h]
  unfold parseFrame
  rw [declaredLength_frameBytes, hp, wireCk_frameBytes]
  simp [frameBytes, frameBody, headerBytes]

/-- Everything `DEC` can say, once: the verdict and the tests it passed (R87, R88). -/
theorem decFrame_cases (b : List Byte) :
    (b.length < 10 ∧ decFrame b = .tooShort) ∨
    (10 ≤ b.length ∧ b.all (fun x => x == 0) = true ∧ decFrame b = .emptyFrame) ∨
    (10 ≤ b.length ∧ b.all (fun x => x == 0) = false ∧ checksumMatches b = false ∧
      decFrame b = .checksumMismatch) ∨
    (10 ≤ b.length ∧ b.all (fun x => x == 0) = false ∧ checksumMatches b = true ∧
      frameLength b ≠ b.length ∧ decFrame b = .lengthInconsistent) ∨
    (10 ≤ b.length ∧ b.all (fun x => x == 0) = false ∧ checksumMatches b = true ∧
      frameLength b = b.length ∧ decFrame b = .frame (parseFrame b)) := by
  unfold decFrame
  by_cases h1 : b.length < 10
  · exact .inl ⟨h1, if_pos h1⟩
  rw [if_neg h1]
  have h1' : 10 ≤ b.length := Nat.le_of_not_lt h1
  by_cases h2 : b.all (fun x => x == 0) = true
  · exact .inr (.inl ⟨h1', h2, if_pos h2⟩)
  rw [if_neg h2]
  have h2' : b.all (fun x => x == 0) = false := Bool.eq_false_iff.mpr h2
  by_cases h3 : checksumMatches b = false
  · exact .inr (.inr (.inl ⟨h1', h2', h3, if_pos h3⟩))
  rw [if_neg h3]
  have h3' : checksumMatches b = true := Bool.eq_true_of_not_eq_false h3
  by_cases h4 : frameLength b = b.length
  · exact .inr (.inr (.inr (.inr ⟨h1', h2', h3', h4, if_neg (by simp [h4])⟩)))
  · exact .inr (.inr (.inr (.inl ⟨h1', h2', h3', h4, if_pos h4⟩)))

@[simp] theorem wireFrame_op (o : Byte) (w : WireFields) : (wireFrame o w).op = o := rfl

@[simp] theorem wireFrame_payload (o : Byte) (w : WireFields) : (wireFrame o w).payload = w.payload := rfl

@[simp] theorem wireFields_wireFrame (o : Byte) (w : WireFields) : wireFields (wireFrame o w) = w := rfl

theorem wireFrame_len {o : Byte} {w : WireFields} (h : w.payload.length ≤ 255) :
    (wireFrame o w).len.toNat = w.payload.length := by
  have : (wireFrame o w).len = BitVec.ofNat 8 w.payload.length := by unfold wireFrame; rfl
  rw [this, BitVec.toNat_ofNat]; omega

theorem wireFrame_ck (o : Byte) (w : WireFields) : (wireFrame o w).ck = crc16 (frameBody (wireFrame o w)) := by
  simp only [wireFrame, frameBody]

/-- A laid-out Frame whose `len` and `ck` are right decodes to itself, unless its bytes are all zero. -/
theorem decFrame_frameBytes {f : Frame} (hl : f.len.toNat = f.payload.length)
    (hc : f.ck = crc16 (frameBody f)) (hz : (frameBytes f).all (fun x => x == 0) = false) :
    decFrame (frameBytes f) = .frame f := by
  have hk : checksumMatches (frameBytes f) = true := by
    simp [checksumMatches, ← hc]
  have hfl : frameLength (frameBytes f) = (frameBytes f).length := by
    simp [frameLength, hl]
  rcases decFrame_cases (frameBytes f) with h | h | h | h | h
  · simp at h
  · exact absurd h.2.1 (by rw [hz]; decide)
  · exact absurd h.2.2.1 (by rw [hk]; decide)
  · exact absurd hfl h.2.2.2.1
  · rw [h.2.2.2.2, parseFrame_frameBytes f hl]

/-- Ten bytes or more are a header, a middle and two checksum bytes. -/
theorem bytes_split {b : List Byte} (h : 10 ≤ b.length) :
    ∃ d0 d1 s0 s1 n r0 r1 o lo hi : Byte, ∃ p : List Byte,
      b = headerBytes (le16 d0 d1) (le16 s0 s1) n r0 r1 o ++ p ++ [lo, hi] := by
  match b, h with
  | d0 :: d1 :: s0 :: s1 :: n :: r0 :: r1 :: o :: t, h =>
    have ht : 2 ≤ t.length := by simp at h; omega
    refine ⟨d0, d1, s0, s1, n, r0, r1, o, t[t.length - 2], t[t.length - 1], t.take (t.length - 2), ?_⟩
    have : t = t.take (t.length - 2) ++ [t[t.length - 2], t[t.length - 1]] := by
      conv_lhs => rw [← List.take_append_drop (t.length - 2) t]
      congr 1
      rw [List.drop_eq_getElem_cons (by omega), show t.length - 2 + 1 = t.length - 1 by omega,
        List.drop_eq_getElem_cons (by omega), show t.length - 1 + 1 = t.length by omega, List.drop_length]
    conv_lhs => rw [this]
    simp [headerBytes]

/-- A decoded Frame lies on the wire as the operand does, its `len` counts its payload and its `ck` is the
CRC of the rest (R15, R87). -/
theorem decFrame_frame {b : List Byte} {f : Frame} (h : decFrame b = .frame f) :
    frameBytes f = b ∧ f.len.toNat = f.payload.length ∧ f.ck = crc16 (frameBody f) ∧
      b.all (fun x => x == 0) = false := by
  rcases decFrame_cases b with ⟨-, e⟩ | ⟨-, -, e⟩ | ⟨-, -, -, e⟩ | ⟨-, -, -, -, e⟩ | ⟨h10, hz, hk, hl, e⟩
  · simp [e] at h
  · simp [e] at h
  · simp [e] at h
  · simp [e] at h
  rw [e] at h
  have hf : parseFrame b = f := by simpa using h
  obtain ⟨d0, d1, s0, s1, n, r0, r1, o, lo, hi, p, rfl⟩ := bytes_split h10
  let g : Frame := ⟨le16 d0 d1, le16 s0 s1, n, r0, r1, o, p, le16 lo hi⟩
  have hg : headerBytes (le16 d0 d1) (le16 s0 s1) n r0 r1 o ++ p ++ [lo, hi] = frameBytes g := by
    simp [g, frameBytes, frameBody, ckBytes]
  rw [hg] at hf hl hk hz ⊢
  have hn : n.toNat = p.length := by
    have := hl
    simp only [frameLength, declaredLength_frameBytes, frameBytes_length, Config.minFrame, g] at this
    omega
  rw [parseFrame_frameBytes g hn] at hf
  subst hf
  refine ⟨rfl, hn, ?_, hz⟩
  have hk' : crc16 (checkedBody (frameBytes g)) = wireCk (frameBytes g) := by
    simpa only [checksumMatches, beq_iff_eq] using hk
  rw [checkedBody_frameBytes, wireCk_frameBytes] at hk'
  exact hk'.symm

/-- A Frame with consistent `len` and `ck` is the wire frame of its free fields. -/
theorem wireFrame_wireFields {f : Frame} (hl : f.len.toNat = f.payload.length)
    (hc : f.ck = crc16 (frameBody f)) : wireFrame f.op (wireFields f) = f := by
  have hlen : BitVec.ofNat 8 f.payload.length = f.len := by
    rw [← hl]; simp
  cases f
  simp only [wireFrame, wireFields, frameBody] at *
  rw [hlen, ← hc]

@[simp] theorem opCodeByte_opCodeOf (b : Byte) : opCodeByte (opCodeOf b) = b := by
  unfold opCodeOf
  cases h : opName b with
  | none => rfl
  | some n => simpa [opCodeByte] using List.find?_some h

@[simp] theorem opName_opByte (n : OpName) : opName (opByte n) = some n := by
  cases n <;> decide

theorem opName_some {b : Byte} {n : OpName} (h : opName b = some n) : b = opByte n :=
  (by simpa using List.find?_some h : opByte n = b).symm

end Sys2Proof.Machine
end

