-- ==== Sys2Proof/Laws/Crc.lean ====
section
/-! SUPPORT. The generator's bit-step is linear and, on a zero input bit, invertible; so are the byte step
and the fold. -/

namespace Sys2Proof.Machine

/-- The bit-step as a shift and a conditional exclusive-or. -/
theorem crcBit_eq (c : Word16) :
    crcBit c = (c >>> 1) ^^^ (if c.getLsbD 0 then crcRpoly else 0) := by
  unfold crcBit; split <;> simp

theorem crcBit_xor (a b : Word16) : crcBit (a ^^^ b) = crcBit a ^^^ crcBit b := by
  simp only [crcBit_eq, BitVec.getLsbD_xor, BitVec.ushiftRight_xor_distrib]
  cases a.getLsbD 0 <;> cases b.getLsbD 0 <;> simp [BitVec.xor_assoc, BitVec.xor_comm crcRpoly] 

theorem crcBit_zero : crcBit 0 = 0 := by decide

theorem crcBits_xor (n : Nat) (a b : Word16) :
    crcBit^[n] (a ^^^ b) = crcBit^[n] a ^^^ crcBit^[n] b := by
  induction n generalizing a b with
  | zero => rfl
  | succ n ih => simp only [Function.iterate_succ_apply, crcBit_xor, ih]

theorem crcBits_zero (n : Nat) : crcBit^[n] 0 = 0 := by
  induction n with
  | zero => rfl
  | succ n ih => rw [Function.iterate_succ_apply, crcBit_zero, ih]

/-- The byte step is linear in register and byte together (R77 law 5). -/
theorem crcStep_xor (a b : Word16) (x y : Byte) :
    crcStep (a ^^^ b) (x ^^^ y) = crcStep a x ^^^ crcStep b y := by
  unfold crcStep
  rw [BitVec.setWidth_xor, ← crcBits_xor]
  congr 1
  ac_rfl

theorem crcStep_zero_zero : crcStep 0 0 = 0 := by decide

theorem crcFold_nil (c : Word16) : crcFold c [] = c := rfl

theorem crcFold_cons (c : Word16) (b : Byte) (s : List Byte) :
    crcFold c (b :: s) = crcFold (crcStep c b) s := rfl

theorem crcFold_append (c : Word16) (s t : List Byte) :
    crcFold c (s ++ t) = crcFold (crcFold c s) t := by
  simp [crcFold, List.foldl_append]

theorem zeros_succ (n : Nat) : zeros (n + 1) = 0 :: zeros n := rfl

theorem crcFold_zeros (n : Nat) : crcFold 0 (zeros n) = 0 := by
  induction n with
  | zero => rfl
  | succ n ih => rw [zeros_succ, crcFold_cons, crcStep_zero_zero, ih]

theorem crcFold_xor (a b : Word16) (s t : List Byte) (h : s.length = t.length) :
    crcFold (a ^^^ b) (s.zipWith (· ^^^ ·) t) = crcFold a s ^^^ crcFold b t := by
  induction s generalizing a b t with
  | nil => cases t with
    | nil => rfl
    | cons => simp at h
  | cons x s ih => cases t with
    | nil => simp at h
    | cons y t =>
      rw [List.zipWith_cons_cons, crcFold_cons, crcStep_xor, ih _ _ _ (by simpa using h)]
      rfl

/-- Only the zero register goes to zero in one bit-step: the polynomial has a constant term. -/
theorem crcBit_eq_zero {c : Word16} (h : crcBit c = 0) : c = 0 := by
  have h15 : (crcBit c).getLsbD 15 = c.getLsbD 0 := by
    rw [crcBit_eq]; cases h0 : c.getLsbD 0 <;> simp [crcRpoly]
  rw [h] at h15
  have h0 : c.getLsbD 0 = false := by simpa using h15.symm
  rw [crcBit_eq, h0] at h
  apply BitVec.eq_of_getLsbD_eq
  intro i hi
  cases i with
  | zero => simpa using h0
  | succ i =>
    have := congrArg (fun v => BitVec.getLsbD v i) h
    simpa [Nat.add_comm] using this

theorem crcBits_eq_zero (n : Nat) {c : Word16} (h : crcBit^[n] c = 0) : c = 0 := by
  induction n generalizing c with
  | zero => exact h
  | succ n ih => exact crcBit_eq_zero (ih (by rwa [Function.iterate_succ_apply] at h))

/-- A byte step that ends at zero started from a register equal to the widened byte. -/
theorem crcStep_eq_zero {c : Word16} {b : Byte} (h : crcStep c b = 0) : c = b.setWidth 16 :=
  BitVec.xor_eq_zero_iff.mp (crcBits_eq_zero 8 h)

/-- Zero bytes bring no non-zero register to zero. -/
theorem crcFold_zeros_ne {c : Word16} (n : Nat) (h : c ≠ 0) : crcFold c (zeros n) ≠ 0 := by
  induction n generalizing c with
  | zero => exact h
  | succ n ih =>
    rw [zeros_succ, crcFold_cons]
    exact ih (fun h0 => h (by simpa using crcStep_eq_zero h0))

end Sys2Proof.Machine
end

