-- ==== Sys2Proof/Laws/State.lean ====
section
/-! SUPPORT. One lemma per field per update of the state, each true by rfl, so that no proof unfolds a record
update. -/

namespace Sys2Proof.Machine

variable (s : State)

@[simp] theorem State.raise_eq (c : Condition) : s.raise c = s.ret (.error c) := rfl

@[simp] theorem State.ret_crcacc (r : Result) : (s.ret r).crcacc = s.crcacc := rfl
@[simp] theorem State.ret_lifecycle (r : Result) : (s.ret r).lifecycle = s.lifecycle := rfl
@[simp] theorem State.ret_abuf (r : Result) : (s.ret r).abuf = s.abuf := rfl
@[simp] theorem State.ret_probes (r : Result) : (s.ret r).probes = s.probes := rfl
@[simp] theorem State.ret_phase (r : Result) : (s.ret r).phase = s.phase := rfl
@[simp] theorem State.ret_rderr (r : Result) : (s.ret r).rderr = s.rderr := rfl
@[simp] theorem State.ret_out (r : Result) : (s.ret r).out = s.out := rfl
@[simp] theorem State.ret_topen (r : Result) : (s.ret r).topen = s.topen := rfl
@[simp] theorem State.ret_tvalid (r : Result) : (s.ret r).tvalid = s.tvalid := rfl
@[simp] theorem State.ret_tstream (r : Result) : (s.ret r).tstream = s.tstream := rfl
@[simp] theorem State.ret_rdMax (r : Result) : (s.ret r).rdMax = s.rdMax := rfl
@[simp] theorem State.ret_nprobeMax (r : Result) : (s.ret r).nprobeMax = s.nprobeMax := rfl
@[simp] theorem State.ret_result (r : Result) : (s.ret r).result = r := rfl
@[simp] theorem State.ret_turns (r : Result) : (s.ret r).turns = s.turns := rfl
@[simp] theorem State.ret_turnNo (r : Result) : (s.ret r).turnNo = s.turnNo := rfl

@[simp] theorem State.bufAppend_crcacc (b : List Byte) : (s.bufAppend b).crcacc = s.crcacc := rfl
@[simp] theorem State.bufAppend_lifecycle (b : List Byte) : (s.bufAppend b).lifecycle = s.lifecycle := rfl
@[simp] theorem State.bufAppend_abuf (b : List Byte) : (s.bufAppend b).abuf = s.abuf ++ b := rfl
@[simp] theorem State.bufAppend_probes (b : List Byte) : (s.bufAppend b).probes = s.probes := rfl
@[simp] theorem State.bufAppend_phase (b : List Byte) : (s.bufAppend b).phase = s.phase := rfl
@[simp] theorem State.bufAppend_rderr (b : List Byte) : (s.bufAppend b).rderr = s.rderr := rfl
@[simp] theorem State.bufAppend_out (b : List Byte) : (s.bufAppend b).out = s.out := rfl
@[simp] theorem State.bufAppend_topen (b : List Byte) : (s.bufAppend b).topen = s.topen := rfl
@[simp] theorem State.bufAppend_tvalid (b : List Byte) : (s.bufAppend b).tvalid = s.tvalid := rfl
@[simp] theorem State.bufAppend_tstream (b : List Byte) : (s.bufAppend b).tstream = s.tstream := rfl
@[simp] theorem State.bufAppend_rdMax (b : List Byte) : (s.bufAppend b).rdMax = s.rdMax := rfl
@[simp] theorem State.bufAppend_nprobeMax (b : List Byte) : (s.bufAppend b).nprobeMax = s.nprobeMax := rfl
@[simp] theorem State.bufAppend_result (b : List Byte) : (s.bufAppend b).result = s.result := rfl
@[simp] theorem State.bufAppend_turns (b : List Byte) : (s.bufAppend b).turns = s.turns := rfl
@[simp] theorem State.bufAppend_turnNo (b : List Byte) : (s.bufAppend b).turnNo = s.turnNo := rfl

@[simp] theorem State.bufDrop_crcacc (n : Nat) : (s.bufDrop n).crcacc = s.crcacc := rfl
@[simp] theorem State.bufDrop_lifecycle (n : Nat) : (s.bufDrop n).lifecycle = s.lifecycle := rfl
@[simp] theorem State.bufDrop_abuf (n : Nat) : (s.bufDrop n).abuf = s.abuf.drop n := rfl
@[simp] theorem State.bufDrop_probes (n : Nat) : (s.bufDrop n).probes = s.probes := rfl
@[simp] theorem State.bufDrop_phase (n : Nat) : (s.bufDrop n).phase = s.phase := rfl
@[simp] theorem State.bufDrop_rderr (n : Nat) : (s.bufDrop n).rderr = s.rderr := rfl
@[simp] theorem State.bufDrop_out (n : Nat) : (s.bufDrop n).out = s.out := rfl
@[simp] theorem State.bufDrop_topen (n : Nat) : (s.bufDrop n).topen = s.topen := rfl
@[simp] theorem State.bufDrop_tvalid (n : Nat) : (s.bufDrop n).tvalid = s.tvalid := rfl
@[simp] theorem State.bufDrop_tstream (n : Nat) : (s.bufDrop n).tstream = s.tstream := rfl
@[simp] theorem State.bufDrop_rdMax (n : Nat) : (s.bufDrop n).rdMax = s.rdMax := rfl
@[simp] theorem State.bufDrop_nprobeMax (n : Nat) : (s.bufDrop n).nprobeMax = s.nprobeMax := rfl
@[simp] theorem State.bufDrop_result (n : Nat) : (s.bufDrop n).result = s.result := rfl
@[simp] theorem State.bufDrop_turns (n : Nat) : (s.bufDrop n).turns = s.turns := rfl
@[simp] theorem State.bufDrop_turnNo (n : Nat) : (s.bufDrop n).turnNo = s.turnNo := rfl

@[simp] theorem State.bufClear_crcacc : s.bufClear.crcacc = s.crcacc := rfl
@[simp] theorem State.bufClear_lifecycle : s.bufClear.lifecycle = s.lifecycle := rfl
@[simp] theorem State.bufClear_abuf : s.bufClear.abuf = [] := rfl
@[simp] theorem State.bufClear_probes : s.bufClear.probes = s.probes := rfl
@[simp] theorem State.bufClear_phase : s.bufClear.phase = s.phase := rfl
@[simp] theorem State.bufClear_rderr : s.bufClear.rderr = s.rderr := rfl
@[simp] theorem State.bufClear_out : s.bufClear.out = s.out := rfl
@[simp] theorem State.bufClear_topen : s.bufClear.topen = s.topen := rfl
@[simp] theorem State.bufClear_tvalid : s.bufClear.tvalid = s.tvalid := rfl
@[simp] theorem State.bufClear_tstream : s.bufClear.tstream = s.tstream := rfl
@[simp] theorem State.bufClear_rdMax : s.bufClear.rdMax = s.rdMax := rfl
@[simp] theorem State.bufClear_nprobeMax : s.bufClear.nprobeMax = s.nprobeMax := rfl
@[simp] theorem State.bufClear_result : s.bufClear.result = s.result := rfl
@[simp] theorem State.bufClear_turns : s.bufClear.turns = s.turns := rfl
@[simp] theorem State.bufClear_turnNo : s.bufClear.turnNo = s.turnNo := rfl

@[simp] theorem State.setCrcacc_crcacc (v : Word16) : (s.setCrcacc v).crcacc = v := rfl
@[simp] theorem State.setCrcacc_lifecycle (v : Word16) : (s.setCrcacc v).lifecycle = s.lifecycle := rfl
@[simp] theorem State.setCrcacc_abuf (v : Word16) : (s.setCrcacc v).abuf = s.abuf := rfl
@[simp] theorem State.setCrcacc_probes (v : Word16) : (s.setCrcacc v).probes = s.probes := rfl
@[simp] theorem State.setCrcacc_phase (v : Word16) : (s.setCrcacc v).phase = s.phase := rfl
@[simp] theorem State.setCrcacc_rderr (v : Word16) : (s.setCrcacc v).rderr = s.rderr := rfl
@[simp] theorem State.setCrcacc_out (v : Word16) : (s.setCrcacc v).out = s.out := rfl
@[simp] theorem State.setCrcacc_topen (v : Word16) : (s.setCrcacc v).topen = s.topen := rfl
@[simp] theorem State.setCrcacc_tvalid (v : Word16) : (s.setCrcacc v).tvalid = s.tvalid := rfl
@[simp] theorem State.setCrcacc_tstream (v : Word16) : (s.setCrcacc v).tstream = s.tstream := rfl
@[simp] theorem State.setCrcacc_rdMax (v : Word16) : (s.setCrcacc v).rdMax = s.rdMax := rfl
@[simp] theorem State.setCrcacc_nprobeMax (v : Word16) : (s.setCrcacc v).nprobeMax = s.nprobeMax := rfl
@[simp] theorem State.setCrcacc_result (v : Word16) : (s.setCrcacc v).result = s.result := rfl
@[simp] theorem State.setCrcacc_turns (v : Word16) : (s.setCrcacc v).turns = s.turns := rfl
@[simp] theorem State.setCrcacc_turnNo (v : Word16) : (s.setCrcacc v).turnNo = s.turnNo := rfl

@[simp] theorem State.setLifecycle_crcacc (v : Lifecycle) : (s.setLifecycle v).crcacc = s.crcacc := rfl
@[simp] theorem State.setLifecycle_lifecycle (v : Lifecycle) : (s.setLifecycle v).lifecycle = v := rfl
@[simp] theorem State.setLifecycle_abuf (v : Lifecycle) : (s.setLifecycle v).abuf = s.abuf := rfl
@[simp] theorem State.setLifecycle_probes (v : Lifecycle) : (s.setLifecycle v).probes = s.probes := rfl
@[simp] theorem State.setLifecycle_phase (v : Lifecycle) : (s.setLifecycle v).phase = s.phase := rfl
@[simp] theorem State.setLifecycle_rderr (v : Lifecycle) : (s.setLifecycle v).rderr = s.rderr := rfl
@[simp] theorem State.setLifecycle_out (v : Lifecycle) : (s.setLifecycle v).out = s.out := rfl
@[simp] theorem State.setLifecycle_topen (v : Lifecycle) : (s.setLifecycle v).topen = s.topen := rfl
@[simp] theorem State.setLifecycle_tvalid (v : Lifecycle) : (s.setLifecycle v).tvalid = s.tvalid := rfl
@[simp] theorem State.setLifecycle_tstream (v : Lifecycle) : (s.setLifecycle v).tstream = s.tstream := rfl
@[simp] theorem State.setLifecycle_rdMax (v : Lifecycle) : (s.setLifecycle v).rdMax = s.rdMax := rfl
@[simp] theorem State.setLifecycle_nprobeMax (v : Lifecycle) : (s.setLifecycle v).nprobeMax = s.nprobeMax := rfl
@[simp] theorem State.setLifecycle_result (v : Lifecycle) : (s.setLifecycle v).result = s.result := rfl
@[simp] theorem State.setLifecycle_turns (v : Lifecycle) : (s.setLifecycle v).turns = s.turns := rfl
@[simp] theorem State.setLifecycle_turnNo (v : Lifecycle) : (s.setLifecycle v).turnNo = s.turnNo := rfl

@[simp] theorem State.setPhase_crcacc (v : Phase) : (s.setPhase v).crcacc = s.crcacc := rfl
@[simp] theorem State.setPhase_lifecycle (v : Phase) : (s.setPhase v).lifecycle = s.lifecycle := rfl
@[simp] theorem State.setPhase_abuf (v : Phase) : (s.setPhase v).abuf = s.abuf := rfl
@[simp] theorem State.setPhase_probes (v : Phase) : (s.setPhase v).probes = s.probes := rfl
@[simp] theorem State.setPhase_phase (v : Phase) : (s.setPhase v).phase = v := rfl
@[simp] theorem State.setPhase_rderr (v : Phase) : (s.setPhase v).rderr = s.rderr := rfl
@[simp] theorem State.setPhase_out (v : Phase) : (s.setPhase v).out = s.out := rfl
@[simp] theorem State.setPhase_topen (v : Phase) : (s.setPhase v).topen = s.topen := rfl
@[simp] theorem State.setPhase_tvalid (v : Phase) : (s.setPhase v).tvalid = s.tvalid := rfl
@[simp] theorem State.setPhase_tstream (v : Phase) : (s.setPhase v).tstream = s.tstream := rfl
@[simp] theorem State.setPhase_rdMax (v : Phase) : (s.setPhase v).rdMax = s.rdMax := rfl
@[simp] theorem State.setPhase_nprobeMax (v : Phase) : (s.setPhase v).nprobeMax = s.nprobeMax := rfl
@[simp] theorem State.setPhase_result (v : Phase) : (s.setPhase v).result = s.result := rfl
@[simp] theorem State.setPhase_turns (v : Phase) : (s.setPhase v).turns = s.turns := rfl
@[simp] theorem State.setPhase_turnNo (v : Phase) : (s.setPhase v).turnNo = s.turnNo := rfl

@[simp] theorem State.setRderr_crcacc (v : Bool) : (s.setRderr v).crcacc = s.crcacc := rfl
@[simp] theorem State.setRderr_lifecycle (v : Bool) : (s.setRderr v).lifecycle = s.lifecycle := rfl
@[simp] theorem State.setRderr_abuf (v : Bool) : (s.setRderr v).abuf = s.abuf := rfl
@[simp] theorem State.setRderr_probes (v : Bool) : (s.setRderr v).probes = s.probes := rfl
@[simp] theorem State.setRderr_phase (v : Bool) : (s.setRderr v).phase = s.phase := rfl
@[simp] theorem State.setRderr_rderr (v : Bool) : (s.setRderr v).rderr = v := rfl
@[simp] theorem State.setRderr_out (v : Bool) : (s.setRderr v).out = s.out := rfl
@[simp] theorem State.setRderr_topen (v : Bool) : (s.setRderr v).topen = s.topen := rfl
@[simp] theorem State.setRderr_tvalid (v : Bool) : (s.setRderr v).tvalid = s.tvalid := rfl
@[simp] theorem State.setRderr_tstream (v : Bool) : (s.setRderr v).tstream = s.tstream := rfl
@[simp] theorem State.setRderr_rdMax (v : Bool) : (s.setRderr v).rdMax = s.rdMax := rfl
@[simp] theorem State.setRderr_nprobeMax (v : Bool) : (s.setRderr v).nprobeMax = s.nprobeMax := rfl
@[simp] theorem State.setRderr_result (v : Bool) : (s.setRderr v).result = s.result := rfl
@[simp] theorem State.setRderr_turns (v : Bool) : (s.setRderr v).turns = s.turns := rfl
@[simp] theorem State.setRderr_turnNo (v : Bool) : (s.setRderr v).turnNo = s.turnNo := rfl

@[simp] theorem State.addProbe_crcacc (k : Sink) : (s.addProbe k).crcacc = s.crcacc := rfl
@[simp] theorem State.addProbe_lifecycle (k : Sink) : (s.addProbe k).lifecycle = s.lifecycle := rfl
@[simp] theorem State.addProbe_abuf (k : Sink) : (s.addProbe k).abuf = s.abuf := rfl
@[simp] theorem State.addProbe_probes (k : Sink) : (s.addProbe k).probes = s.probes ++ [k] := rfl
@[simp] theorem State.addProbe_phase (k : Sink) : (s.addProbe k).phase = s.phase := rfl
@[simp] theorem State.addProbe_rderr (k : Sink) : (s.addProbe k).rderr = s.rderr := rfl
@[simp] theorem State.addProbe_out (k : Sink) : (s.addProbe k).out = s.out := rfl
@[simp] theorem State.addProbe_topen (k : Sink) : (s.addProbe k).topen = s.topen := rfl
@[simp] theorem State.addProbe_tvalid (k : Sink) : (s.addProbe k).tvalid = s.tvalid := rfl
@[simp] theorem State.addProbe_tstream (k : Sink) : (s.addProbe k).tstream = s.tstream := rfl
@[simp] theorem State.addProbe_rdMax (k : Sink) : (s.addProbe k).rdMax = s.rdMax := rfl
@[simp] theorem State.addProbe_nprobeMax (k : Sink) : (s.addProbe k).nprobeMax = s.nprobeMax := rfl
@[simp] theorem State.addProbe_result (k : Sink) : (s.addProbe k).result = s.result := rfl
@[simp] theorem State.addProbe_turns (k : Sink) : (s.addProbe k).turns = s.turns := rfl
@[simp] theorem State.addProbe_turnNo (k : Sink) : (s.addProbe k).turnNo = s.turnNo := rfl

@[simp] theorem State.dispatchAll_crcacc (f : Frame) : (s.dispatchAll f).crcacc = s.crcacc := rfl
@[simp] theorem State.dispatchAll_lifecycle (f : Frame) : (s.dispatchAll f).lifecycle = s.lifecycle := rfl
@[simp] theorem State.dispatchAll_abuf (f : Frame) : (s.dispatchAll f).abuf = s.abuf := rfl
@[simp] theorem State.dispatchAll_probes (f : Frame) : (s.dispatchAll f).probes = s.probes := rfl
@[simp] theorem State.dispatchAll_phase (f : Frame) : (s.dispatchAll f).phase = s.phase := rfl
@[simp] theorem State.dispatchAll_rderr (f : Frame) : (s.dispatchAll f).rderr = s.rderr := rfl
@[simp] theorem State.dispatchAll_out (f : Frame) : (s.dispatchAll f).out = s.out ++ dispatches s.probes f := rfl
@[simp] theorem State.dispatchAll_topen (f : Frame) : (s.dispatchAll f).topen = s.topen := rfl
@[simp] theorem State.dispatchAll_tvalid (f : Frame) : (s.dispatchAll f).tvalid = s.tvalid := rfl
@[simp] theorem State.dispatchAll_tstream (f : Frame) : (s.dispatchAll f).tstream = s.tstream := rfl
@[simp] theorem State.dispatchAll_rdMax (f : Frame) : (s.dispatchAll f).rdMax = s.rdMax := rfl
@[simp] theorem State.dispatchAll_nprobeMax (f : Frame) : (s.dispatchAll f).nprobeMax = s.nprobeMax := rfl
@[simp] theorem State.dispatchAll_result (f : Frame) : (s.dispatchAll f).result = s.result := rfl
@[simp] theorem State.dispatchAll_turns (f : Frame) : (s.dispatchAll f).turns = s.turns := rfl
@[simp] theorem State.dispatchAll_turnNo (f : Frame) : (s.dispatchAll f).turnNo = s.turnNo := rfl

@[simp] theorem State.tOpen_crcacc (ok : Bool) : (s.tOpen ok).crcacc = s.crcacc := rfl
@[simp] theorem State.tOpen_lifecycle (ok : Bool) : (s.tOpen ok).lifecycle = s.lifecycle := rfl
@[simp] theorem State.tOpen_abuf (ok : Bool) : (s.tOpen ok).abuf = s.abuf := rfl
@[simp] theorem State.tOpen_probes (ok : Bool) : (s.tOpen ok).probes = s.probes := rfl
@[simp] theorem State.tOpen_phase (ok : Bool) : (s.tOpen ok).phase = s.phase := rfl
@[simp] theorem State.tOpen_rderr (ok : Bool) : (s.tOpen ok).rderr = s.rderr := rfl
@[simp] theorem State.tOpen_out (ok : Bool) : (s.tOpen ok).out = s.out := rfl
@[simp] theorem State.tOpen_topen (ok : Bool) : (s.tOpen ok).topen = ok := rfl
@[simp] theorem State.tOpen_tvalid (ok : Bool) : (s.tOpen ok).tvalid = s.tvalid := rfl
@[simp] theorem State.tOpen_tstream (ok : Bool) : (s.tOpen ok).tstream = s.tstream := rfl
@[simp] theorem State.tOpen_rdMax (ok : Bool) : (s.tOpen ok).rdMax = s.rdMax := rfl
@[simp] theorem State.tOpen_nprobeMax (ok : Bool) : (s.tOpen ok).nprobeMax = s.nprobeMax := rfl
@[simp] theorem State.tOpen_result (ok : Bool) : (s.tOpen ok).result = s.result := rfl
@[simp] theorem State.tOpen_turns (ok : Bool) : (s.tOpen ok).turns = s.turns := rfl
@[simp] theorem State.tOpen_turnNo (ok : Bool) : (s.tOpen ok).turnNo = s.turnNo := rfl

@[simp] theorem State.tClose_crcacc : s.tClose.crcacc = s.crcacc := rfl
@[simp] theorem State.tClose_lifecycle : s.tClose.lifecycle = s.lifecycle := rfl
@[simp] theorem State.tClose_abuf : s.tClose.abuf = s.abuf := rfl
@[simp] theorem State.tClose_probes : s.tClose.probes = s.probes := rfl
@[simp] theorem State.tClose_phase : s.tClose.phase = s.phase := rfl
@[simp] theorem State.tClose_rderr : s.tClose.rderr = s.rderr := rfl
@[simp] theorem State.tClose_out : s.tClose.out = s.out := rfl
@[simp] theorem State.tClose_topen : s.tClose.topen = false := rfl
@[simp] theorem State.tClose_tvalid : s.tClose.tvalid = s.tvalid := rfl
@[simp] theorem State.tClose_tstream : s.tClose.tstream = s.tstream := rfl
@[simp] theorem State.tClose_rdMax : s.tClose.rdMax = s.rdMax := rfl
@[simp] theorem State.tClose_nprobeMax : s.tClose.nprobeMax = s.nprobeMax := rfl
@[simp] theorem State.tClose_result : s.tClose.result = s.result := rfl
@[simp] theorem State.tClose_turns : s.tClose.turns = s.turns := rfl
@[simp] theorem State.tClose_turnNo : s.tClose.turnNo = s.turnNo := rfl

@[simp] theorem State.tReadRest_crcacc (k n : Nat) : (s.tReadRest k n).crcacc = s.crcacc := rfl
@[simp] theorem State.tReadRest_lifecycle (k n : Nat) : (s.tReadRest k n).lifecycle = s.lifecycle := rfl
@[simp] theorem State.tReadRest_abuf (k n : Nat) : (s.tReadRest k n).abuf = s.abuf := rfl
@[simp] theorem State.tReadRest_probes (k n : Nat) : (s.tReadRest k n).probes = s.probes := rfl
@[simp] theorem State.tReadRest_phase (k n : Nat) : (s.tReadRest k n).phase = s.phase := rfl
@[simp] theorem State.tReadRest_rderr (k n : Nat) : (s.tReadRest k n).rderr = s.rderr := rfl
@[simp] theorem State.tReadRest_out (k n : Nat) : (s.tReadRest k n).out = s.out := rfl
@[simp] theorem State.tReadRest_topen (k n : Nat) : (s.tReadRest k n).topen = s.topen := rfl
@[simp] theorem State.tReadRest_tvalid (k n : Nat) : (s.tReadRest k n).tvalid = s.tvalid := rfl
@[simp] theorem State.tReadRest_tstream (k n : Nat) : (s.tReadRest k n).tstream = s.tstream.drop (min n k) := rfl
@[simp] theorem State.tReadRest_rdMax (k n : Nat) : (s.tReadRest k n).rdMax = s.rdMax := rfl
@[simp] theorem State.tReadRest_nprobeMax (k n : Nat) : (s.tReadRest k n).nprobeMax = s.nprobeMax := rfl
@[simp] theorem State.tReadRest_result (k n : Nat) : (s.tReadRest k n).result = s.result := rfl
@[simp] theorem State.tReadRest_turns (k n : Nat) : (s.tReadRest k n).turns = s.turns := rfl
@[simp] theorem State.tReadRest_turnNo (k n : Nat) : (s.tReadRest k n).turnNo = s.turnNo := rfl

@[simp] theorem State.tArrive_crcacc (b : List Byte) : (s.tArrive b).crcacc = s.crcacc := rfl
@[simp] theorem State.tArrive_lifecycle (b : List Byte) : (s.tArrive b).lifecycle = s.lifecycle := rfl
@[simp] theorem State.tArrive_abuf (b : List Byte) : (s.tArrive b).abuf = s.abuf := rfl
@[simp] theorem State.tArrive_probes (b : List Byte) : (s.tArrive b).probes = s.probes := rfl
@[simp] theorem State.tArrive_phase (b : List Byte) : (s.tArrive b).phase = s.phase := rfl
@[simp] theorem State.tArrive_rderr (b : List Byte) : (s.tArrive b).rderr = s.rderr := rfl
@[simp] theorem State.tArrive_out (b : List Byte) : (s.tArrive b).out = s.out := rfl
@[simp] theorem State.tArrive_topen (b : List Byte) : (s.tArrive b).topen = s.topen := rfl
@[simp] theorem State.tArrive_tvalid (b : List Byte) : (s.tArrive b).tvalid = s.tvalid := rfl
@[simp] theorem State.tArrive_tstream (b : List Byte) : (s.tArrive b).tstream = s.tstream ++ b := rfl
@[simp] theorem State.tArrive_rdMax (b : List Byte) : (s.tArrive b).rdMax = s.rdMax := rfl
@[simp] theorem State.tArrive_nprobeMax (b : List Byte) : (s.tArrive b).nprobeMax = s.nprobeMax := rfl
@[simp] theorem State.tArrive_result (b : List Byte) : (s.tArrive b).result = s.result := rfl
@[simp] theorem State.tArrive_turns (b : List Byte) : (s.tArrive b).turns = s.turns := rfl
@[simp] theorem State.tArrive_turnNo (b : List Byte) : (s.tArrive b).turnNo = s.turnNo := rfl

@[simp] theorem State.tExhaust_crcacc : s.tExhaust.crcacc = s.crcacc := rfl
@[simp] theorem State.tExhaust_lifecycle : s.tExhaust.lifecycle = s.lifecycle := rfl
@[simp] theorem State.tExhaust_abuf : s.tExhaust.abuf = s.abuf := rfl
@[simp] theorem State.tExhaust_probes : s.tExhaust.probes = s.probes := rfl
@[simp] theorem State.tExhaust_phase : s.tExhaust.phase = s.phase := rfl
@[simp] theorem State.tExhaust_rderr : s.tExhaust.rderr = s.rderr := rfl
@[simp] theorem State.tExhaust_out : s.tExhaust.out = s.out := rfl
@[simp] theorem State.tExhaust_topen : s.tExhaust.topen = s.topen := rfl
@[simp] theorem State.tExhaust_tvalid : s.tExhaust.tvalid = false := rfl
@[simp] theorem State.tExhaust_tstream : s.tExhaust.tstream = s.tstream := rfl
@[simp] theorem State.tExhaust_rdMax : s.tExhaust.rdMax = s.rdMax := rfl
@[simp] theorem State.tExhaust_nprobeMax : s.tExhaust.nprobeMax = s.nprobeMax := rfl
@[simp] theorem State.tExhaust_result : s.tExhaust.result = s.result := rfl
@[simp] theorem State.tExhaust_turns : s.tExhaust.turns = s.turns := rfl
@[simp] theorem State.tExhaust_turnNo : s.tExhaust.turnNo = s.turnNo := rfl

@[simp] theorem State.tDies_crcacc (d : Bool) : (s.tDies d).crcacc = s.crcacc := rfl
@[simp] theorem State.tDies_lifecycle (d : Bool) : (s.tDies d).lifecycle = s.lifecycle := rfl
@[simp] theorem State.tDies_abuf (d : Bool) : (s.tDies d).abuf = s.abuf := rfl
@[simp] theorem State.tDies_probes (d : Bool) : (s.tDies d).probes = s.probes := rfl
@[simp] theorem State.tDies_phase (d : Bool) : (s.tDies d).phase = s.phase := rfl
@[simp] theorem State.tDies_rderr (d : Bool) : (s.tDies d).rderr = s.rderr := rfl
@[simp] theorem State.tDies_out (d : Bool) : (s.tDies d).out = s.out := rfl
@[simp] theorem State.tDies_topen (d : Bool) : (s.tDies d).topen = s.topen := rfl
@[simp] theorem State.tDies_tvalid (d : Bool) : (s.tDies d).tvalid = (s.tvalid && !d) := rfl
@[simp] theorem State.tDies_tstream (d : Bool) : (s.tDies d).tstream = s.tstream := rfl
@[simp] theorem State.tDies_rdMax (d : Bool) : (s.tDies d).rdMax = s.rdMax := rfl
@[simp] theorem State.tDies_nprobeMax (d : Bool) : (s.tDies d).nprobeMax = s.nprobeMax := rfl
@[simp] theorem State.tDies_result (d : Bool) : (s.tDies d).result = s.result := rfl
@[simp] theorem State.tDies_turns (d : Bool) : (s.tDies d).turns = s.turns := rfl
@[simp] theorem State.tDies_turnNo (d : Bool) : (s.tDies d).turnNo = s.turnNo := rfl

end Sys2Proof.Machine
end

