-- ==== Sys2Proof/Laws/Ops.lean ====
section
/-! SUPPORT. One lemma per shared operation that says once everything it can do. -/

namespace Sys2Proof.Machine

/-- `frame_length` lies between 10 and 265 (R62). -/
theorem frameLength_bounds (b : List Byte) : 10 ≤ frameLength b ∧ frameLength b ≤ 265 := by
  have := (b.getD Config.lenOff 0).isLt
  simp only [frameLength, declaredLength, Config.minFrame]; omega

/-- The length byte of a window that reaches past it is the buffer's. -/
theorem frameLength_take {b : List Byte} {n : Nat} (h : 10 ≤ n) : frameLength (b.take n) = frameLength b := by
  simp only [frameLength, declaredLength, List.getD_eq_getElem?_getD, Config.lenOff]
  rw [List.getElem?_take_of_lt (by omega)]

/-- The candidate: the window at the front of the declared length. -/
theorem memRead_front (s : State) (n : Nat) : s.memRead 0 n = s.abuf.take n := rfl

/-- Everything one iteration of the inner loop can do (R98): it never refuses. -/
theorem resyncStep_cases (s : State) :
    (s.abuf.length < 10 ∧ resyncStep s = .ok (.stopShort, s)) ∨
    (10 ≤ s.abuf.length ∧ s.abuf.length < frameLength s.abuf ∧
      resyncStep s = .ok (.stopWait (frameLength s.abuf), s)) ∨
    (frameLength s.abuf ≤ s.abuf.length ∧ ∃ f,
      decFrame (s.abuf.take (frameLength s.abuf)) = .frame f ∧
      resyncStep s = .ok (.frame f, (s.dispatchAll f).bufDrop (frameLength s.abuf))) ∨
    (frameLength s.abuf ≤ s.abuf.length ∧ ∃ c, (c = .emptyFrame ∨ c = .checksumMismatch) ∧
      silentFront s.abuf = true ∧
      decFrame (s.abuf.take (frameLength s.abuf)) =
        (if c = .emptyFrame then .emptyFrame else .checksumMismatch) ∧
      resyncStep s = .ok (.slip c, s.bufDrop 1)) := by
  have hb := frameLength_bounds s.abuf
  unfold resyncStep silentFront Config.minFrame
  by_cases h1 : s.abuf.length < 10
  · simp [h1]
  by_cases h2 : s.abuf.length < frameLength s.abuf
  · right; left; simp [h1, h2]; omega
  right; right
  have hlen : (s.abuf.take (frameLength s.abuf)).length = frameLength s.abuf := by
    simp; omega
  simp only [memRead_front]
  rcases decFrame_cases (s.abuf.take (frameLength s.abuf)) with h | h | h | h | h
  · omega
  · right; exact ⟨by omega, .emptyFrame, by simp, by simp [h.2.2], by simp [h.2.2], by simp [h1, h2, h.2.2]⟩
  · right
    exact ⟨by omega, .checksumMismatch, by simp, by simp [h.2.2.2], by simp [h.2.2.2], by simp [h1, h2, h.2.2.2]⟩
  · exfalso; apply h.2.2.2.1; rw [hlen, frameLength_take hb.1]
  · left; exact ⟨by omega, _, h.2.2.2.2, by simp [h1, h2, h.2.2.2.2]⟩

@[simp] theorem emitted_nil (p : List Sink) : emitted p [] = [] := rfl

@[simp] theorem emitted_cons (p : List Sink) (f : Frame) (fs : List Frame) :
    emitted p (f :: fs) = dispatches p f ++ emitted p fs := rfl

/-- A drain with one iteration more than bytes buffered ends in a stop; it shortens the buffer from the
front, emits its frames, and touches nothing else (R99, R100 item 8, R103). -/
theorem drainLoop_spec (fuel : Nat) (s : State) (acc : List Frame) (h : s.abuf.length < fuel) :
    ∃ fs rest, drainLoop fuel s acc =
        .ok (acc ++ fs, { s with abuf := rest, out := s.out ++ emitted s.probes fs }) ∧
      rest <:+ s.abuf ∧ (rest.length < 10 ∨ rest.length < frameLength rest) := by
  induction fuel generalizing s acc with
  | zero => omega
  | succ n ih =>
    have hb := frameLength_bounds s.abuf
    rcases resyncStep_cases s with ⟨h1, e⟩ | ⟨h1, h2, e⟩ | ⟨h1, f, -, e⟩ | ⟨h1, c, -, -, -, e⟩
    · exact ⟨[], s.abuf, by simp [drainLoop, e], List.suffix_refl _, .inl h1⟩
    · exact ⟨[], s.abuf, by simp [drainLoop, e], List.suffix_refl _, .inr h2⟩
    · obtain ⟨fs, rest, e', hs, hstop⟩ :=
        ih ((s.dispatchAll f).bufDrop (frameLength s.abuf)) (acc ++ [f]) (by simp; omega)
      refine ⟨f :: fs, rest, ?_, hs.trans (List.drop_suffix _ _), hstop⟩
      simp only [drainLoop, e, e']
      simp [State.dispatchAll, State.bufDrop]
    · obtain ⟨fs, rest, e', hs, hstop⟩ := ih (s.bufDrop 1) acc (by simp; omega)
      refine ⟨fs, rest, ?_, hs.trans (List.drop_suffix _ _), hstop⟩
      simp only [drainLoop, e, e']
      simp [State.bufDrop]

/-- What `RSY.PUSH` can do (R97). -/
theorem pushBytes_cases (s : State) (b : List Byte) :
    (s.abuf.length + b.length ≤ abufCap s ∧ pushBytes s b = .ok (s.bufAppend b)) ∨
    (abufCap s < s.abuf.length + b.length ∧ pushBytes s b = .error .bufferOverflow) := by
  unfold pushBytes
  by_cases h : abufCap s < s.abuf.length + b.length
  · simp [h]
  · simp [h]; omega

/-- A bit of the block's own turn: the selector read back is the pair of registers (R63). -/
@[simp] theorem selPhase_selOf (s : State) : selPhase (selOf s) = phaseCode s.phase := by
  unfold selPhase selOf; cases s.lifecycle <;> cases s.phase <;> decide

@[simp] theorem selState_selOf (s : State) : selState (selOf s) = lifecycleCode s.lifecycle := by
  unfold selState selOf; cases s.lifecycle <;> cases s.phase <;> decide

@[simp] theorem lifecycleOf_code (l : Lifecycle) : lifecycleOf (lifecycleCode l) = l := by
  cases l <;> rfl

@[simp] theorem phaseOf_code (p : Phase) : phaseOf (phaseCode p) = some p := by
  cases p <;> rfl

/-- Taking a turn touches nothing but the queue and its index. -/
theorem takeTurn_snd (s : State) : ∃ q n, (takeTurn s).2 = { s with turns := q, turnNo := n } := by
  unfold takeTurn; split
  · exact ⟨_, s.turnNo, rfl⟩
  · exact ⟨s.turns, _, rfl⟩

/-- Everything a transaction can be: the instruction its word decodes to, run on the state with the turn
taken, or a turn whose word is no instruction. -/
theorem step_cases (s : State) :
    (∃ w i, fetchWord (takeTurn s).1 (takeTurn s).2 = some w ∧ decode w = .ok i ∧
      step s = exec i (takeTurn s).2) ∨
    step s = noInstruction (takeTurn s).1 (takeTurn s).2 := by
  unfold step
  split
  · exact .inr rfl
  · rename_i w hw
    split
    · rename_i i hi; exact .inl ⟨w, i, hw, hi, rfl⟩
    · exact .inr rfl

end Sys2Proof.Machine
end

