-- ==== Sys2Proof/Laws/Drain.lean ====
section
/-! SUPPORT. The drain of R99 as a function of the buffer alone, and the equations that give the host's drain
and feed through it. -/

namespace Sys2Proof.Machine

/-- The frames a drain confirms and the bytes it leaves, as a function of the buffer (R98, R99). -/
def pureDrain : Nat → List Byte → List Frame × List Byte
  | 0, b => ([], b)
  | n+1, b => if b.length < 10 then ([], b) else if b.length < frameLength b then ([], b) else
     match decFrame (b.take (frameLength b)) with
     | .frame f => let r := pureDrain n (b.drop (frameLength b)); (f :: r.1, r.2)
     | _ => pureDrain n (b.drop 1)

/-- The drain acts on the buffer and the output trace only, through `pureDrain`. -/
theorem drainLoop_pure (n : Nat) (s : State) (acc) : 
   drainLoop n s acc = .ok (acc ++ (pureDrain n s.abuf).1, { s with
     abuf := (pureDrain n s.abuf).2, out := s.out ++ emitted s.probes (pureDrain n s.abuf).1 }) := by
  induction n generalizing s acc with
  | zero => simp [drainLoop, pureDrain]
  | succ n ih =>
    have hb := frameLength_bounds s.abuf
    rcases resyncStep_cases s with ⟨h1, e⟩ | ⟨h1, h2, e⟩ | ⟨h1, f, hd, e⟩ | ⟨h1, c, hc, -, hd, e⟩
    · simp [drainLoop, e, pureDrain, h1]
    · simp [drainLoop, e, pureDrain, h2]
    · have h3 : ¬ s.abuf.length < 10 := by omega
      simp only [drainLoop, e, ih]
      simp [pureDrain, h3, Nat.not_lt.mpr h1, hd, State.dispatchAll, State.bufDrop]
    · have h3 : ¬ s.abuf.length < 10 := by omega
      simp only [drainLoop, e, ih]
      rcases hc with rfl | rfl <;> simp at hd <;> simp [pureDrain, h3, Nat.not_lt.mpr h1, hd, State.bufDrop]

/-- Any fuel above the number of buffered bytes gives the same drain (R100 item 8). -/
theorem pureDrain_mono (n m : Nat) (b : List Byte) (hn : b.length < n) (hm : b.length < m) :
    pureDrain n b = pureDrain m b := by
  induction n generalizing m b with
  | zero => omega
  | succ n ih =>
    cases m with
    | zero => omega
    | succ m =>
      have hb := frameLength_bounds b
      simp only [pureDrain]
      by_cases h1 : b.length < 10
      · simp [h1]
      by_cases h2 : b.length < frameLength b
      · simp [h2]
      simp only [h1, h2, if_false]
      rw [ih m (b.drop (frameLength b)) (by simp; omega) (by simp; omega),
        ih m (b.drop 1) (by simp; omega) (by simp; omega)]

theorem frameLength_append {a : List Byte} (b) (h : 10 ≤ a.length) : frameLength (a ++ b) = frameLength a := by
  have := frameLength_take (b := a ++ b) (n := a.length) h
  rw [List.take_left'] at this
  exact this.symm
  rfl

/-- Draining a prefix first changes nothing: a non-stop outcome reads only bytes that later appends never
alter, and a stop changes nothing (R102). -/
theorem pureDrain_append (n m k : Nat) (a b : List Byte) (hn : (a ++ b).length < n) (hm : a.length < m)
    (hk : ((pureDrain m a).2 ++ b).length < k) :
    pureDrain n (a ++ b) =
      ((pureDrain m a).1 ++ (pureDrain k ((pureDrain m a).2 ++ b)).1, (pureDrain k ((pureDrain m a).2 ++ b)).2) := by
  induction m generalizing n a with
  | zero => omega
  | succ m ih =>
    have hb := frameLength_bounds a
    by_cases h1 : a.length < 10
    · simp only [pureDrain, h1, if_true] at hk ⊢
      simp [pureDrain_mono n k (a ++ b) hn hk]
    by_cases h2 : a.length < frameLength a
    · simp only [pureDrain, h1, h2, if_true, if_false] at hk ⊢
      simp [pureDrain_mono n k (a ++ b) hn hk]
    cases n with
    | zero => omega
    | succ n =>
    have h3 : ¬ (a ++ b).length < 10 := by simp; omega
    have hfa := frameLength_append b (Nat.le_of_not_lt h1)
    have h4 : ¬ (a ++ b).length < frameLength a := by simp; omega
    have ht : (a ++ b).take (frameLength a) = a.take (frameLength a) := List.take_append_of_le_length (by omega)
    have hd : (a ++ b).drop (frameLength a) = a.drop (frameLength a) ++ b := List.drop_append_of_le_length (by omega)
    have hd1 : (a ++ b).drop 1 = a.drop 1 ++ b := List.drop_append_of_le_length (by omega)
    rw [show pureDrain (n+1) (a ++ b) = _ from rfl]
    simp only [pureDrain, hfa, h3, h4, h1, h2, if_false, ht, hd, hd1] at hk ⊢
    have hl : (a ++ b).length < n + 1 := hn
    simp at hl
    split at hk
    · rename_i f hf
      rw [ih n (a.drop (frameLength a)) (by simp; omega) (by simp; omega) hk]
      simp
    · exact ih n (a.drop 1) (by simp; omega) (by simp; omega) hk

theorem pureDrain_suffix (n b) : (pureDrain n b).2 <:+ b := by
  induction n generalizing b with
  | zero => exact List.suffix_refl _
  | succ n ih =>
    simp only [pureDrain]
    split
    · exact List.suffix_refl _
    split
    · exact List.suffix_refl _
    split
    · exact (ih _).trans (List.drop_suffix _ _)
    · exact (ih _).trans (List.drop_suffix _ _)

theorem drain_pure (s : State) : drain s = .ok ((pureDrain (s.abuf.length+1) s.abuf).1, { s with
    abuf := (pureDrain (s.abuf.length+1) s.abuf).2
    out := s.out ++ emitted s.probes (pureDrain (s.abuf.length+1) s.abuf).1 }) := by
  simp [drain, drainLoop_pure]


/-- The drain with enough fuel. -/
abbrev drainOf (b : List Byte) : List Frame × List Byte := pureDrain (b.length + 1) b

/-- A state after a drain: the buffer left, the frames emitted, the result attached. -/
def drained (s : State) (b : List Byte) : State :=
  { s with abuf := (drainOf b).2, out := s.out ++ emitted s.probes (drainOf b).1, result := .frames (drainOf b).1 }

theorem exec_rsyDrain_eq {s : State} (h : s.lifecycle = .ready) : exec .rsyDrain s = .next (drained s s.abuf) := by
  simp only [exec, execRsyDrain, whenReady]
  rw [if_pos h, drain_pure]; rfl

theorem exec_rsyFeed_eq {s : State} {b : List Byte} (h : s.lifecycle = .ready)
    (hc : s.abuf.length + b.length ≤ abufCap s) :
    exec (.rsyFeed b) s = .next (drained s (s.abuf ++ b)) := by
  have e : pushBytes s b = .ok (s.bufAppend b) := by
    rcases pushBytes_cases s b with ⟨_, e⟩ | ⟨h', e⟩
    · exact e
    · omega
  simp only [exec, execRsyFeed, whenReady]
  rw [if_pos h, e]; simp only [Except.bind]; rw [drain_pure]; rfl

/-! ### One iteration as a function of the buffer -/

/-- The outcome of one iteration and the bytes it leaves, as a function of the buffer (R98). -/
def pureStep (b : List Byte) : StepOutcome × List Byte :=
  if b.length < 10 then (.stopShort, b)
  else if b.length < frameLength b then (.stopWait (frameLength b), b)
  else match decFrame (b.take (frameLength b)) with
    | .frame f => (.frame f, b.drop (frameLength b))
    | .emptyFrame => (.slip .emptyFrame, b.drop 1)
    | _ => (.slip .checksumMismatch, b.drop 1)

/-- One iteration acts on the buffer and the output trace only, through `pureStep`. -/
theorem resyncStep_pure (s : State) : resyncStep s = .ok ((pureStep s.abuf).1, { s with
    abuf := (pureStep s.abuf).2, out := s.out ++ emitted s.probes (framesOf [(pureStep s.abuf).1]) }) := by
  have hb := frameLength_bounds s.abuf
  rcases resyncStep_cases s with ⟨h1, e⟩ | ⟨h1, h2, e⟩ | ⟨h1, f, hd, e⟩ | ⟨h1, c, hc, -, hd, e⟩
  · simp [e, pureStep, h1, framesOf]
  · simp [e, pureStep, h2, Nat.not_lt.mpr h1, framesOf]
  · have h10 : ¬ s.abuf.length < 10 := by omega
    simp [e, pureStep, h10, Nat.not_lt.mpr h1, hd, framesOf, State.dispatchAll, State.bufDrop]
  · have h10 : ¬ s.abuf.length < 10 := by omega
    rcases hc with rfl | rfl <;> simp at hd <;>
      simp [e, pureStep, h10, Nat.not_lt.mpr h1, hd, framesOf, State.bufDrop]

/-- A host-issued `RSY.STEP` in `READY` (R98). -/
theorem exec_rsyStep_eq {s : State} (h : s.lifecycle = .ready) : exec .rsyStep s = .next { s with
    abuf := (pureStep s.abuf).2, out := s.out ++ emitted s.probes (framesOf [(pureStep s.abuf).1])
    result := .step (pureStep s.abuf).1 } := by
  simp only [exec, execRsyStep, whenReady, h, if_true, resyncStep_pure]; rfl

/-- A stop leaves the buffer as it is; anything else shortens it (R100 items 1, 2 and 8). -/
theorem pureStep_stop_or_shorter (b : List Byte) :
    (isStop (pureStep b).1 = true ∧ (pureStep b).2 = b) ∨
    (isStop (pureStep b).1 = false ∧ (pureStep b).2.length < b.length) := by
  have hb := frameLength_bounds b
  unfold pureStep
  by_cases h1 : b.length < 10
  · simp [h1, isStop]
  by_cases h2 : b.length < frameLength b
  · simp [h1, h2, isStop]
  right
  simp only [h1, h2, if_false]
  split <;> simp [isStop] <;> omega

/-- An iteration that does not stop reads only bytes that later pushes never alter (R102). -/
theorem pureStep_append {a : List Byte} (b : List Byte) (h : isStop (pureStep a).1 = false) :
    pureStep (a ++ b) = ((pureStep a).1, (pureStep a).2 ++ b) := by
  have hb := frameLength_bounds a
  by_cases h1 : a.length < 10
  · simp [pureStep, h1, isStop] at h
  by_cases h2 : a.length < frameLength a
  · simp [pureStep, h1, h2, isStop] at h
  have hfa := frameLength_append b (Nat.le_of_not_lt h1)
  have h3 : ¬ (a ++ b).length < 10 := by simp; omega
  have h4 : ¬ (a ++ b).length < frameLength a := by simp; omega
  have ht : (a ++ b).take (frameLength a) = a.take (frameLength a) := List.take_append_of_le_length (by omega)
  have hd : (a ++ b).drop (frameLength a) = a.drop (frameLength a) ++ b :=
    List.drop_append_of_le_length (by omega)
  have hd1 : (a ++ b).drop 1 = a.drop 1 ++ b := List.drop_append_of_le_length (by omega)
  simp only [pureStep, hfa, h1, h2, h3, h4, if_false, ht, hd, hd1]
  split <;> rfl

/-- A drain takes one iteration and goes on unless it stops. -/
theorem pureDrain_succ (n : Nat) (b : List Byte) : pureDrain (n + 1) b =
    if isStop (pureStep b).1 then ([], b)
    else (framesOf [(pureStep b).1] ++ (pureDrain n (pureStep b).2).1, (pureDrain n (pureStep b).2).2) := by
  by_cases h1 : b.length < 10
  · simp [pureDrain, pureStep, h1, isStop]
  by_cases h2 : b.length < frameLength b
  · simp [pureDrain, pureStep, h1, h2, isStop]
  simp only [pureDrain, pureStep, h1, h2, if_false]
  cases decFrame (b.take (frameLength b)) <;> simp [isStop, framesOf]

/-- A host-issued `RSY.PUSH` in `READY` within the capacity (R97). -/
theorem exec_rsyPush_eq {s : State} {b : List Byte} (h : s.lifecycle = .ready)
    (hc : s.abuf.length + b.length ≤ abufCap s) :
    exec (.rsyPush b) s = .next { s with abuf := s.abuf ++ b, result := .none } := by
  have e : pushBytes s b = .ok (s.bufAppend b) := by
    rcases pushBytes_cases s b with ⟨_, e⟩ | ⟨h', e⟩
    · exact e
    · omega
  simp only [exec, execRsyPush, whenReady]
  rw [if_pos h, e]; rfl

end Sys2Proof.Machine
end

