-- ==== Sys2Proof/Laws/Exec.lean ====
section
/-! SUPPORT. Said once for all instructions: every next state an instruction or a transaction can give. A proof
about all steps takes the cases of `exec_changes` and `step_changes` and unfolds no meaning. -/

namespace Sys2Proof.Machine

/-- One iteration of the inner loop changes the buffer and the output trace only; a stop changes nothing and
leaves at most 264 bytes (R98, R103). -/
theorem resyncStep_shape (s : State) : ∃ o rest fs,
    resyncStep s = .ok (o, { s with abuf := rest, out := s.out ++ emitted s.probes fs }) ∧
    rest <:+ s.abuf ∧ (isStop o = true → rest = s.abuf ∧ fs = [] ∧ s.abuf.length ≤ 264) := by
  have hb := frameLength_bounds s.abuf
  rcases resyncStep_cases s with ⟨h1, e⟩ | ⟨h1, h2, e⟩ | ⟨h1, f, -, e⟩ | ⟨h1, c, -, -, -, e⟩
  · exact ⟨.stopShort, s.abuf, [], by simp [e], List.suffix_refl _, fun _ => ⟨rfl, rfl, by omega⟩⟩
  · exact ⟨.stopWait _, s.abuf, [], by simp [e]; rfl, List.suffix_refl _, fun _ => ⟨rfl, rfl, by omega⟩⟩
  · exact ⟨.frame f, s.abuf.drop (frameLength s.abuf), [f], by simp [e, State.dispatchAll, State.bufDrop],
      List.drop_suffix _ _, by simp [isStop]⟩
  · exact ⟨.slip c, s.abuf.drop 1, [], by simp [e, State.bufDrop], List.drop_suffix _ _, by simp [isStop]⟩

/-- The next states `exec i` can give from `s`, by kind of effect. -/
inductive Changes (s : State) : Instr → State → Prop
  | crc {i} (v r) : usesCrcacc i = true → (∀ c, r ≠ .error c) → Changes s i { s with crcacc := v, result := r }
  | resultOnly {i} (r) : (∀ c, r = .error c →
      c = .emptyFrame ∨ c = .checksumMismatch ∨ c = .notReady ∨ c = .notRunning) →
      Changes s i { s with result := r }
  | hostRsy {i} (rest fs r) : isHostRsy i = true → s.lifecycle = .ready →
      rest.length ≤ max (abufCap s) s.abuf.length → (∀ c, r ≠ .error c) →
      Changes s i { s with abuf := rest, out := s.out ++ emitted s.probes fs, result := r }
  | start : s.lifecycle = .ready → Changes s .start
      { s with lifecycle := .running, abuf := [], rderr := false, phase := .guard, result := .ok }
  | shutdown : s.lifecycle = .running ∨ s.lifecycle = .invalid → Changes s .shutdown
      { s with lifecycle := .stopping, result := .waiting }
  | probe (k) : s.lifecycle = .ready → s.probes.length ≠ s.nprobeMax → Changes s (.probe k)
      { s with probes := s.probes ++ [k], result := .none }
  | shutdownDone : s.lifecycle = .stopping → s.phase = .idle → Changes s .shutdownDone
      { s with lifecycle := .ready, result := .ok }
  | guardCancelled : s.phase = .guard → s.lifecycle ≠ .running → Changes s .wGuard
      { s with phase := .idle, result := .none }
  | guardInvalid : s.phase = .guard → s.lifecycle = .running → s.tvalid = false → Changes s .wGuard
      { s with lifecycle := .invalid, phase := .idle, result := .none }
  | guardPassed : s.phase = .guard → s.lifecycle = .running → s.tvalid = true → Changes s .wGuard
      { s with phase := .openchk, result := .none }
  | openchkOpen (ok d) : s.phase = .openchk → s.topen = true → Changes s (.wOpenchk ok d)
      { s with phase := .read, result := .none }
  | openchkClosed (ok d) : s.phase = .openchk → s.topen = false → Changes s (.wOpenchk ok d)
      { s with abuf := [], topen := ok, tvalid := s.tvalid && !d, phase := .read, result := .none }
  | read (n e d) : s.phase = .read → Changes s (.wRead n e d)
      { s with abuf := s.abuf ++ s.tstream.take (min n s.rdMax), tstream := s.tstream.drop (min n s.rdMax)
               tvalid := s.tvalid && !d, rderr := e, phase := .extract, result := .none }
  | extract (o rest fs) : s.phase = .extract → rest <:+ s.abuf →
      (isStop o = true → rest = s.abuf ∧ fs = [] ∧ s.abuf.length ≤ 264) → Changes s .wExtract
      { s with abuf := rest, out := s.out ++ emitted s.probes fs
               phase := if isStop o then .errchk else .extract, result := .none }
  | errchkClose (d) : s.phase = .errchk → s.rderr = true → Changes s (.wErrchk d)
      { s with topen := false, tvalid := s.tvalid && !d, phase := .guard, result := .none }
  | errchkNoError (d) : s.phase = .errchk → s.rderr = false → Changes s (.wErrchk d)
      { s with phase := .guard, result := .none }
  | wire {i} (b) : isWireRow i = true → Changes s i { s with tstream := s.tstream ++ b, result := .none }

/-- The host's three buffer operations that run the inner loop or append, and the flush. -/
theorem hostRsy_changes {i : Instr} {s t : State} (hi : isHostRsy i = true) (h : exec i s = .next t) :
    Changes s i t := by
  by_cases hl : s.lifecycle = .ready
  case neg =>
    cases i <;> simp [isHostRsy] at hi <;>
      simp [exec, execRsyFlush, execRsyPush, execRsyStep, execRsyDrain, execRsyFeed, whenReady, hl] at h
  cases i <;> simp only [isHostRsy, reduceCtorEq] at hi
  case rsyFlush =>
    simp only [exec, execRsyFlush, whenReady, hl, if_true, Host.Outcome.next.injEq] at h
    have := Changes.hostRsy (s := s) (i := .rsyFlush) [] [] .none rfl hl (by simp) (by simp)
    rw [← h]; simpa [State.bufClear, State.ret] using this
  case rsyPush b =>
    simp only [exec, execRsyPush, whenReady, hl, if_true] at h
    rcases pushBytes_cases s b with ⟨hc, e⟩ | ⟨-, e⟩ <;>
      simp only [e, answerOf, Host.Outcome.next.injEq, reduceCtorEq] at h
    have := Changes.hostRsy (s := s) (i := .rsyPush b) (s.abuf ++ b) [] .none rfl hl (by simp; omega) (by simp)
    rw [← h]; simpa [State.bufAppend, State.ret] using this
  case rsyStep =>
    simp only [exec, execRsyStep, whenReady, hl, if_true] at h
    obtain ⟨o, rest, fs, e, hs, -⟩ := resyncStep_shape s
    simp only [e, answerOf, Host.Outcome.next.injEq] at h
    rw [← h]
    exact .hostRsy rest fs (.step o) rfl hl (le_trans hs.length_le (by simp)) (by simp)
  case rsyDrain =>
    rw [exec_rsyDrain_eq hl, Host.Outcome.next.injEq] at h
    rw [← h]
    exact .hostRsy _ _ _ rfl hl (le_trans (pureDrain_suffix _ _).length_le (by simp)) (by simp)
  case rsyFeed b =>
    rcases pushBytes_cases s b with ⟨hc, -⟩ | ⟨-, e⟩
    · rw [exec_rsyFeed_eq hl hc, Host.Outcome.next.injEq] at h
      rw [← h]
      exact .hostRsy _ _ _ rfl hl (le_trans (pureDrain_suffix _ _).length_le (by simp; omega)) (by simp)
    · simp [exec, execRsyFeed, whenReady, hl, e, answerOf, Except.bind] at h

/-- The worker's five steps. -/
theorem worker_changes {i : Instr} {s t : State} (hi : isWorkerStep i = true) (h : exec i s = .next t) :
    Changes s i t := by
  cases i <;> simp only [isWorkerStep, reduceCtorEq] at hi
  case wGuard =>
    simp only [exec, execWGuard, whenPhase] at h
    split at h
    case isFalse => simp at h
    rename_i hp
    simp only [Host.Outcome.next.injEq] at h
    subst h
    split
    · exact .guardCancelled hp ‹_›
    · rename_i hr; simp only [ne_eq, not_not] at hr
      split
      · exact .guardInvalid hp hr ‹_›
      · rename_i hv; exact .guardPassed hp hr (by simpa [State.tIsValid] using hv)
  case wOpenchk ok d =>
    simp only [exec, execWOpenchk, whenPhase] at h
    split at h
    case isFalse => simp at h
    rename_i hp
    simp only [Host.Outcome.next.injEq] at h
    subst h
    split
    · exact .openchkClosed ok d hp ‹_›
    · rename_i hv; exact .openchkOpen ok d hp (by simpa [State.tIsOpen] using hv)
  case wRead n e d =>
    simp only [exec, execWRead, whenPhase] at h
    split at h
    case isFalse => simp at h
    rename_i hp
    simp only [Host.Outcome.next.injEq] at h
    subst h
    exact .read n e d hp
  case wExtract =>
    simp only [exec, execWExtract, whenPhase] at h
    split at h
    case isFalse => simp at h
    rename_i hp
    obtain ⟨o, rest, fs, e, hs, hst⟩ := resyncStep_shape s
    simp only [e, answerOf, Host.Outcome.next.injEq] at h
    have := Changes.extract o rest fs hp hs hst
    rw [← h]
    cases ho : isStop o <;> simpa [ho, State.setPhase, State.ret, hp] using this
  case wErrchk d =>
    simp only [exec, execWErrchk, whenPhase] at h
    split at h
    case isFalse => simp at h
    rename_i hp
    simp only [Host.Outcome.next.injEq] at h
    subst h
    split
    · exact .errchkClose d hp ‹_›
    · rename_i hr; exact .errchkNoError d hp (by simpa [transportReadError] using hr)

/-- The four lifecycle commands and `SHUTDOWN.DONE`. -/
theorem lifecycle_changes {i : Instr} {s t : State}
    (hi : i = .start ∨ i = .shutdown ∨ i = .shutdownDone ∨ ∃ k, i = .probe k) (h : exec i s = .next t) :
    Changes s i t := by
  rcases hi with rfl | rfl | rfl | ⟨k, rfl⟩
  · simp only [exec, execStart] at h
    split at h <;> simp only [Host.Outcome.next.injEq] at h <;> subst h
    · exact .start ‹_›
    · exact .resultOnly _ (by simp)
  · simp only [exec, execShutdown] at h
    split at h <;> simp only [Host.Outcome.next.injEq] at h <;> subst h
    · exact .shutdown ‹_›
    · exact .resultOnly _ (by simp)
  · simp only [exec, execShutdownDone] at h
    split at h
    case isFalse => simp at h
    rename_i hd
    simp only [doneEnabled, Bool.and_eq_true, beq_iff_eq] at hd
    simp only [Host.Outcome.next.injEq] at h
    subst h
    exact .shutdownDone hd.1 hd.2
  · simp only [exec, execProbe] at h
    split at h
    case isTrue => simp at h
    rename_i hl
    split at h
    case isTrue => simp at h
    rename_i hp
    simp only [Host.Outcome.next.injEq] at h
    subst h
    exact .probe k (by simpa using hl) hp

/-- Every next state of every instruction. -/
theorem exec_changes {i : Instr} {s t : State} (h : exec i s = .next t) : Changes s i t := by
  cases i with
  | crcClr | crcUpd | crc16 =>
    simp only [exec, execCrcClr, execCrcUpd, execCrc16, Host.Outcome.next.injEq] at h
    subst h
    exact .crc _ _ rfl (by simp)
  | crcGet | status =>
    simp only [exec, execCrcGet, execStatus, Host.Outcome.next.injEq] at h
    subst h
    exact .resultOnly _ (by simp)
  | chkVerify | enc | dec =>
    simp only [exec, execChkVerify, execEnc, execDec] at h
    split at h <;> simp only [Host.Outcome.next.injEq, reduceCtorEq] at h <;> subst h <;>
      exact .resultOnly _ (by simp)
  | reserved0 | reservedE | reservedF =>
    simp [exec, execReserved0, execReservedE, execReservedF, refuseReserved] at h
  | rsyFlush | rsyPush | rsyStep | rsyDrain | rsyFeed => exact hostRsy_changes rfl h
  | wGuard | wOpenchk | wRead | wExtract | wErrchk => exact worker_changes rfl h
  | start | shutdown | shutdownDone | probe => exact lifecycle_changes (by simp) h
  | _ =>
    simp only [exec, execFrame, execOpReadTableBlock, execOpAcknowledgeA, execOpAcknowledgeB,
      execOpWriteTableBlock, execOpChangeTableName, execOpNegativeAcknowledge, execOpAlarmPacket,
      execOpReadObjectData, execOpReadVariable, execOpWriteForceVariable, execOpAutoVariableReport,
      execOpReadList, arriveOp, arriveBytes, Host.Outcome.next.injEq] at h
    subst h
    exact .wire _ rfl

/-- The next states a transaction can give: the taken turn's instruction, or a turn whose word is no
instruction (nothing, arriving bytes, a move of the environment on the transport). -/
inductive StepChanges (s : State) : State → Prop
  | instr (q n i t) : Changes { s with turns := q, turnNo := n } i t → StepChanges s t
  | nothing (q n) : StepChanges s { s with turns := q, turnNo := n, result := .none }
  | bytes (q n b) : StepChanges s { s with turns := q, turnNo := n, result := .none, tstream := s.tstream ++ b }
  | exhaust (q n) : StepChanges s { s with turns := q, turnNo := n, result := .none, tvalid := false }
  | transport (q n k o) : engineRuns s = false → StepChanges s
      { s with turns := q, turnNo := n, result := .none, tstream := s.tstream.drop k, topen := o }

/-- Every next state of every transaction. -/
theorem step_changes {s t : State} (h : step s = .next t) : StepChanges s t := by
  obtain ⟨q, n, e⟩ := takeTurn_snd s
  rcases step_cases s with ⟨w, i, -, -, e'⟩ | e'
  · rw [e', e] at h
    exact .instr q n i t (exec_changes h)
  rw [e'] at h
  generalize (takeTurn s).1 = tn at h
  rw [e] at h
  cases tn with
  | host | hostPseudo => simp [noInstruction] at h
  | block =>
    simp only [noInstruction, Host.Outcome.next.injEq] at h
    exact h ▸ .nothing q n
  | wire b =>
    simp only [noInstruction, arriveBytes, Host.Outcome.next.injEq] at h
    exact h ▸ .bytes q n b
  | env ev =>
    cases ev with
    | exhaustT =>
      simp only [noInstruction, envMove, Host.Outcome.next.injEq] at h
      exact h ▸ .exhaust q n
    | openT ok =>
      simp only [noInstruction, envMove] at h
      split at h
      case isTrue => simp at h
      split at h
      case isTrue => simp at h
      rename_i hr _
      simp only [Host.Outcome.next.injEq] at h
      have := StepChanges.transport (s := s) q n 0 ok (by simpa [engineRuns] using hr)
      exact h ▸ this
    | closeT =>
      simp only [noInstruction, envMove] at h
      split at h
      case isTrue => simp at h
      rename_i hr
      simp only [Host.Outcome.next.injEq] at h
      have := StepChanges.transport (s := s) q n 0 false (by simpa [engineRuns] using hr)
      exact h ▸ this
    | readT k =>
      simp only [noInstruction, envMove] at h
      split at h
      case isTrue => simp at h
      rename_i hr
      simp only [Host.Outcome.next.injEq] at h
      have := StepChanges.transport (s := s) q n (min k k) s.topen (by simpa [engineRuns] using hr)
      exact h ▸ this

end Sys2Proof.Machine
end

