-- ==== Sys2Proof/Laws/PerInstr.lean ====
section
/-! SUPPORT. For every instruction: the word the encoder writes for it is one of its own row of
spec/opcode_table.json. -/

namespace Sys2Proof.Laws.EncodedAsRow

/-- A row of the table: its format, with the code and the mask where the row gives bits. -/
inductive Row
  | cmd (code : Nat)
  | sel (code mask : Nat)
  | opByte (code : Nat)
  | wire
  | pseudo
  deriving DecidableEq, Repr

/-- The word is of that row: the command port carries the code; the selector carries it under the mask; a wire
word carries it at offset 7, behind the length byte at offset 4 and before as many bytes and two more. -/
def Row.carriedBy : Row → TransWord → Prop
  | .cmd v, .cmd c _ => c.toNat = v
  | .sel v m, .sel c _ => c.toNat &&& m = v
  | .opByte v, .wire b => (b.getD 7 0).toNat = v ∧ (b.getD 4 0).toNat + 10 = b.length
  | .wire, .wire b => (b.getD 4 0).toNat + 10 = b.length
  | .pseudo, .pseudo _ _ => True
  | _, _ => False

/-- The row each instruction is a constructor for, as the table gives it. -/
def row : Instr → Row
  | .crcClr => .cmd 0x1
  | .crcUpd _ => .cmd 0x2
  | .crcGet => .cmd 0x3
  | .chkVerify _ => .cmd 0x4
  | .enc _ => .cmd 0x5
  | .dec _ => .cmd 0x6
  | .rsyFlush => .cmd 0x7
  | .rsyPush _ => .cmd 0x8
  | .rsyStep => .cmd 0x9
  | .start => .cmd 0xA
  | .shutdown => .cmd 0xB
  | .probe _ => .cmd 0xC
  | .status => .cmd 0xD
  | .reserved0 => .cmd 0x0
  | .reservedE => .cmd 0xE
  | .reservedF => .cmd 0xF
  | .shutdownDone => .sel 0x10 0x1F
  | .wGuard => .sel 0x01 0x07
  | .wOpenchk _ _ => .sel 0x02 0x07
  | .wRead _ _ _ => .sel 0x03 0x07
  | .wExtract => .sel 0x04 0x07
  | .wErrchk _ => .sel 0x05 0x07
  | .crc16 _ => .pseudo
  | .rsyDrain => .pseudo
  | .rsyFeed _ => .pseudo
  | .frame _ => .wire
  | .opReadTableBlock _ => .opByte 0x0B
  | .opAcknowledgeA _ => .opByte 0x02
  | .opAcknowledgeB _ => .opByte 0x06
  | .opWriteTableBlock _ => .opByte 0x0C
  | .opChangeTableName _ => .opByte 0x10
  | .opNegativeAcknowledge _ => .opByte 0x15
  | .opAlarmPacket _ => .opByte 0x1E
  | .opReadObjectData _ => .opByte 0x22
  | .opReadVariable _ => .opByte 0x62
  | .opWriteForceVariable _ => .opByte 0x63
  | .opAutoVariableReport _ => .opByte 0x64
  | .opReadList _ => .opByte 0x75

/-- What the family states of an instruction: if well formed, its encoded word is one of its row. -/
def Statement (i : Instr) : Prop := wellFormed i = true → (row i).carriedBy (encode i)

/-- An OPBYTE row's word. -/
theorem opByte_carried (n : OpName) (w : WireFields) (h : payloadFits w.payload = true) :
    (Row.opByte (Machine.opByte n).toNat).carriedBy (encodeOp n w) := by
  have hl : w.payload.length ≤ 255 := by simpa [payloadFits] using h
  refine ⟨rfl, ?_⟩
  have := Machine.wireFrame_len (o := Machine.opByte n) hl
  rw [Machine.frameBytes_length]
  exact congrArg (· + 10) this

theorem crcClr : Statement .crcClr := fun _ => rfl
theorem crcUpd : ∀ b, Statement (.crcUpd b) := fun _ _ => rfl
theorem crcGet : Statement .crcGet := fun _ => rfl
theorem chkVerify : ∀ b, Statement (.chkVerify b) := fun _ _ => rfl
theorem enc : ∀ f, Statement (.enc f) := fun _ _ => rfl
theorem dec : ∀ b, Statement (.dec b) := fun _ _ => rfl
theorem rsyFlush : Statement .rsyFlush := fun _ => rfl
theorem rsyPush : ∀ b, Statement (.rsyPush b) := fun _ _ => rfl
theorem rsyStep : Statement .rsyStep := fun _ => rfl
theorem start : Statement .start := fun _ => rfl
theorem shutdown : Statement .shutdown := fun _ => rfl
theorem probe : ∀ k, Statement (.probe k) := fun _ _ => rfl
theorem status : Statement .status := fun _ => rfl
theorem reserved0 : Statement .reserved0 := fun _ => rfl
theorem reservedE : Statement .reservedE := fun _ => rfl
theorem reservedF : Statement .reservedF := fun _ => rfl
theorem shutdownDone : Statement .shutdownDone := fun _ => rfl
theorem wGuard : Statement .wGuard := fun _ => rfl
theorem wOpenchk : ∀ ok d, Statement (.wOpenchk ok d) := fun _ _ _ => rfl
theorem wRead : ∀ n e d, Statement (.wRead n e d) := fun _ _ _ _ => rfl
theorem wExtract : Statement .wExtract := fun _ => rfl
theorem wErrchk : ∀ d, Statement (.wErrchk d) := fun _ _ => rfl
theorem crc16 : ∀ b, Statement (.crc16 b) := fun _ _ => trivial
theorem rsyDrain : Statement .rsyDrain := fun _ => trivial
theorem rsyFeed : ∀ b, Statement (.rsyFeed b) := fun _ _ => trivial
theorem frame : ∀ f, Statement (.frame f) := by
  intro f h
  have hl : f.payload.length ≤ 255 ∧ f.len = BitVec.ofNat 8 f.payload.length := by
    simp only [wellFormed, frameConsistent, payloadFits, Bool.and_eq_true, decide_eq_true_eq, beq_iff_eq] at h
    exact h.1.1.1
  have e : (Machine.frameBytes f).getD 4 0 = f.len := rfl
  show ((Machine.frameBytes f).getD 4 0).toNat + 10 = (Machine.frameBytes f).length
  rw [e, hl.2, BitVec.toNat_ofNat, Machine.frameBytes_length]
  omega
theorem opReadTableBlock : ∀ w, Statement (.opReadTableBlock w) :=
  fun w h => opByte_carried .readTableBlock w h
theorem opAcknowledgeA : ∀ w, Statement (.opAcknowledgeA w) := fun w h => opByte_carried .acknowledgeA w h
theorem opAcknowledgeB : ∀ w, Statement (.opAcknowledgeB w) := fun w h => opByte_carried .acknowledgeB w h
theorem opWriteTableBlock : ∀ w, Statement (.opWriteTableBlock w) :=
  fun w h => opByte_carried .writeTableBlock w h
theorem opChangeTableName : ∀ w, Statement (.opChangeTableName w) :=
  fun w h => opByte_carried .changeTableName w h
theorem opNegativeAcknowledge : ∀ w, Statement (.opNegativeAcknowledge w) :=
  fun w h => opByte_carried .negativeAcknowledge w h
theorem opAlarmPacket : ∀ w, Statement (.opAlarmPacket w) := fun w h => opByte_carried .alarmPacket w h
theorem opReadObjectData : ∀ w, Statement (.opReadObjectData w) :=
  fun w h => opByte_carried .readObjectData w h
theorem opReadVariable : ∀ w, Statement (.opReadVariable w) := fun w h => opByte_carried .readVariable w h
theorem opWriteForceVariable : ∀ w, Statement (.opWriteForceVariable w) :=
  fun w h => opByte_carried .writeForceVariable w h
theorem opAutoVariableReport : ∀ w, Statement (.opAutoVariableReport w) :=
  fun w h => opByte_carried .autoVariableReport w h
theorem opReadList : ∀ w, Statement (.opReadList w) := fun w h => opByte_carried .readList w h

end Sys2Proof.Laws.EncodedAsRow
end

