-- ==== Sys2Proof/Tests/Slice0.lean ====
section
/-! SUPPORT. The model's own tests. V and S name the vectors of spec/95_test_vectors.md; wire words whose vector
the specification does not print carry a checksum computed by hand from R71. -/

namespace Sys2Proof.Tests

set_option Elab.async false

open Sys2Proof Sys2Proof.Machine

/-! ### Helpers -/

/-- A small state: the reset state in the given registers. -/
def at' (l : Lifecycle) (p : Phase) (buf : List Byte) : State :=
  { State.reset with lifecycle := l, phase := p, abuf := buf }

/-- The result a transaction handed out, if it has a next state. -/
def resultOf (a : Answer) : Option Result := (nextOf a).map (fun t => t.result)

/-- The bytes of V3.1 (S1). -/
def bytesF : List Byte :=
  [0x01, 0x00, 0xF1, 0xF1, 0x03, 0x00, 0x00, 0x0B, 0x00, 0x01, 0x01, 0x32, 0x94]

/-- The Frame of V3.11. -/
def frameF : Frame := ⟨0x0001, 0xF1F1, 0x03, 0x00, 0x00, 0x0B, [0x00, 0x01, 0x01], 0x9432⟩

/-- The bytes of V3.2. -/
def bytesK : List Byte := [0x01, 0x00, 0x02, 0x00, 0x00, 0x00, 0x00, 0x06, 0x40, 0x2C]

/-- The Frame of V3.13. -/
def frameK : Frame := ⟨0x0001, 0x0002, 0x00, 0x00, 0x00, 0x06, [], 0x2C40⟩

/-- The Frame of V3.12, its reserved bytes not zero. -/
def frameR : Frame := ⟨0x0001, 0xF1F1, 0x03, 0x12, 0x34, 0x0B, [0x00, 0x01, 0x01], 0x2280⟩

/-- The bytes of V3.12. -/
def bytesR : List Byte :=
  [0x01, 0x00, 0xF1, 0xF1, 0x03, 0x12, 0x34, 0x0B, 0x00, 0x01, 0x01, 0x80, 0x22]

/-- The Frame of V3.6, its operation byte without a name. -/
def frameU : Frame := ⟨0x1234, 0x5678, 0x01, 0x00, 0x00, 0xFF, [0xAB], 0xAA2F⟩

/-- A Frame with the largest payload; its length and checksum fields are stale. -/
def frameBig : Frame := ⟨0x1234, 0xABCD, 0x00, 0x00, 0x00, 0x62, List.replicate 255 0x5A, 0x0000⟩

/-- A Frame whose payload is one byte too long. -/
def frameTooBig : Frame := ⟨0x0001, 0x0002, 0x00, 0x00, 0x00, 0x06, List.replicate 256 0x5A, 0x0000⟩

/-- Answers of a transport that delivers nothing. -/
def quiet : TAnswer := ⟨false, 0, false, false⟩

/-- Answers of a transport that comes to its end: an open succeeds, a read gives two bytes with an error. -/
def ending : TAnswer := ⟨true, 2, true, true⟩

/-! ### Well-formedness: what the check refuses (R51, R55, R57, R93) -/

theorem test_wellFormed_accepts_frame : wellFormed (.frame frameU) = true := by decide +kernel

theorem test_wellFormed_refuses_wrong_length : wellFormed (.frame { frameU with len := 0x02 }) = false := by
  decide +kernel

theorem test_wellFormed_refuses_wrong_checksum : wellFormed (.frame { frameU with ck := 0x2FAA }) = false := by
  decide +kernel

theorem test_wellFormed_refuses_zero_frame : wellFormed (.frame ⟨0, 0, 0, 0, 0, 0, [], 0⟩) = false := by
  decide +kernel

theorem test_wellFormed_refuses_named_operation_in_frame : wellFormed (.frame frameF) = false := by
  decide +kernel

/-- Each of the twelve OPBYTE rows refuses a payload of 256 bytes. -/
theorem test_wellFormed_refuses_long_payload :
    ([Instr.opReadTableBlock,
      Instr.opAcknowledgeA,
      Instr.opAcknowledgeB,
      Instr.opWriteTableBlock,
      Instr.opChangeTableName,
      Instr.opNegativeAcknowledge,
      Instr.opAlarmPacket,
      Instr.opReadObjectData,
      Instr.opReadVariable,
      Instr.opWriteForceVariable,
      Instr.opAutoVariableReport,
      Instr.opReadList].all
      (fun op => !wellFormed (op ⟨0x0001, 0x0002, 0x00, 0x00, List.replicate 256 0x5A⟩))) = true := by
  decide +kernel

/-! ### Decoding: a word written out from the tables of R60, R63, R65 and R51 for every constructor -/

theorem test_decode_crcClr : decode (.cmd 0x1 .none) = .ok (.crcClr) := rfl
theorem test_decode_crcUpd : decode (.cmd 0x2 (.byte 0x31)) = .ok (.crcUpd 0x31) := rfl
theorem test_decode_crcGet : decode (.cmd 0x3 .none) = .ok (.crcGet) := rfl
theorem test_decode_chkVerify : decode (.cmd 0x4 (.bytes [0x01, 0xC1, 0xC0])) =
    .ok (.chkVerify [0x01, 0xC1, 0xC0]) := rfl
theorem test_decode_enc : decode (.cmd 0x5 (.frame frameF)) = .ok (.enc frameF) := rfl
theorem test_decode_dec : decode (.cmd 0x6 (.bytes bytesF)) = .ok (.dec bytesF) := rfl
theorem test_decode_rsyFlush : decode (.cmd 0x7 .none) = .ok (.rsyFlush) := rfl
theorem test_decode_rsyPush : decode (.cmd 0x8 (.bytes [0xDE, 0xAD])) = .ok (.rsyPush [0xDE, 0xAD]) := rfl
theorem test_decode_rsyStep : decode (.cmd 0x9 .none) = .ok (.rsyStep) := rfl
theorem test_decode_start : decode (.cmd 0xA .none) = .ok (.start) := rfl
theorem test_decode_shutdown : decode (.cmd 0xB .none) = .ok (.shutdown) := rfl
theorem test_decode_probe : decode (.cmd 0xC (.sink 1)) = .ok (.probe 1) := rfl
theorem test_decode_status : decode (.cmd 0xD .none) = .ok (.status) := rfl
theorem test_decode_reserved0 : decode (.cmd 0x0 .none) = .ok (.reserved0) := rfl
theorem test_decode_reservedE : decode (.cmd 0xE .none) = .ok (.reservedE) := rfl
theorem test_decode_reservedF : decode (.cmd 0xF .none) = .ok (.reservedF) := rfl

theorem test_decode_shutdownDone : decode (.sel 0b10000 quiet) = .ok .shutdownDone := rfl
theorem test_decode_wGuard : decode (.sel 0b01001 ending) = .ok (.wGuard) := rfl
theorem test_decode_wOpenchk : decode (.sel 0b01010 ending) = .ok (.wOpenchk true true) := rfl
theorem test_decode_wRead : decode (.sel 0b10011 ending) = .ok (.wRead 2 true true) := rfl
theorem test_decode_wExtract : decode (.sel 0b01100 ending) = .ok (.wExtract) := rfl
theorem test_decode_wErrchk : decode (.sel 0b10101 ending) = .ok (.wErrchk true) := rfl
theorem test_decode_sel_idle : decode (.sel 0b01000 quiet) = .error .selIdle := rfl
theorem test_decode_sel_reserved : decode (.sel 0b01110 quiet) = .error .selPhaseReserved := rfl
theorem test_decode_missing_operand : decode (.cmd 0x4 .none) = .error .operandMissing := rfl

theorem test_decode_crc16 : decode (.pseudo .crc16 [0x31]) = .ok (.crc16 [0x31]) := rfl
theorem test_decode_rsyDrain : decode (.pseudo .rsyDrain []) = .ok .rsyDrain := rfl
theorem test_decode_rsyFeed : decode (.pseudo .rsyFeed [0xDE]) = .ok (.rsyFeed [0xDE]) := rfl

/-- V3.6. -/
theorem test_decode_frame : decode (.wire [0x34, 0x12, 0x78, 0x56, 0x01, 0x00, 0x00, 0xFF, 0xAB, 0x2F, 0xAA]) =
    .ok (.frame frameU) := by decide +kernel

/-- V3.1, S1. -/
theorem test_decode_opReadTableBlock : decode (.wire bytesF) =
    .ok (.opReadTableBlock ⟨0x0001, 0xF1F1, 0x00, 0x00, [0x00, 0x01, 0x01]⟩) := by decide +kernel

/-- V3.5. -/
theorem test_decode_opWriteTableBlock :
    decode (.wire [0x01, 0x40, 0x01, 0x20, 0x04, 0x00, 0x00, 0x0C, 0x00, 0x3B, 0x02, 0xAA, 0x81, 0x26]) =
      .ok (.opWriteTableBlock ⟨0x4001, 0x2001, 0x00, 0x00, [0x00, 0x3B, 0x02, 0xAA]⟩) := by decide +kernel

/-- V3.2. -/
theorem test_decode_opAcknowledgeB : decode (.wire bytesK) =
    .ok (.opAcknowledgeB ⟨0x0001, 0x0002, 0x00, 0x00, []⟩) := by
  decide +kernel

theorem test_decode_opAcknowledgeA :
    decode (.wire [0x01, 0x00, 0x02, 0x00, 0x00, 0x00, 0x00, 0x02, 0x41, 0xEF]) =
      .ok (.opAcknowledgeA ⟨0x0001, 0x0002, 0x00, 0x00, []⟩) := by decide +kernel

theorem test_decode_opChangeTableName :
    decode (.wire [0x01, 0x00, 0x02, 0x00, 0x00, 0x00, 0x00, 0x10, 0xC1, 0xE2]) =
      .ok (.opChangeTableName ⟨0x0001, 0x0002, 0x00, 0x00, []⟩) := by decide +kernel

theorem test_decode_opNegativeAcknowledge :
    decode (.wire [0x01, 0x00, 0x02, 0x00, 0x00, 0x00, 0x00, 0x15, 0x01, 0xE1]) =
      .ok (.opNegativeAcknowledge ⟨0x0001, 0x0002, 0x00, 0x00, []⟩) := by decide +kernel

theorem test_decode_opAlarmPacket :
    decode (.wire [0x01, 0x00, 0x02, 0x00, 0x00, 0x00, 0x00, 0x1E, 0x40, 0x26]) =
      .ok (.opAlarmPacket ⟨0x0001, 0x0002, 0x00, 0x00, []⟩) := by decide +kernel

theorem test_decode_opReadObjectData :
    decode (.wire [0x01, 0x00, 0x02, 0x00, 0x00, 0x00, 0x00, 0x22, 0x40, 0x37]) =
      .ok (.opReadObjectData ⟨0x0001, 0x0002, 0x00, 0x00, []⟩) := by decide +kernel

theorem test_decode_opReadVariable :
    decode (.wire [0x01, 0x00, 0x02, 0x00, 0x00, 0x00, 0x00, 0x62, 0x41, 0xC7]) =
      .ok (.opReadVariable ⟨0x0001, 0x0002, 0x00, 0x00, []⟩) := by decide +kernel

theorem test_decode_opWriteForceVariable :
    decode (.wire [0x01, 0x00, 0x02, 0x00, 0x00, 0x00, 0x00, 0x63, 0x80, 0x07]) =
      .ok (.opWriteForceVariable ⟨0x0001, 0x0002, 0x00, 0x00, []⟩) := by decide +kernel

theorem test_decode_opAutoVariableReport :
    decode (.wire [0x01, 0x00, 0x02, 0x00, 0x00, 0x00, 0x00, 0x64, 0xC1, 0xC5]) =
      .ok (.opAutoVariableReport ⟨0x0001, 0x0002, 0x00, 0x00, []⟩) := by decide +kernel

theorem test_decode_opReadList :
    decode (.wire [0x01, 0x00, 0x02, 0x00, 0x00, 0x00, 0x00, 0x75, 0x01, 0xC9]) =
      .ok (.opReadList ⟨0x0001, 0x0002, 0x00, 0x00, []⟩) := by decide +kernel

theorem test_decode_wire_too_short : decode (.wire (bytesK.take 9)) = .error .wireTooShort := rfl

/-- V3.19: the checksum is tested before the length (R88). -/
theorem test_decode_wire_checksum_first :
    decode (.wire (bytesF.set 4 0x02)) = .error .wireChecksumMismatch := by decide +kernel

/-! ### Table words and the first step after reset -/

theorem test_table_word_start : decodeTableWord 8 0x0A = some .start := by decide +kernel

theorem test_table_word_done : decodeTableWord 8 0x10 = some .shutdownDone := by decide +kernel

theorem test_table_word_operation : decodeTableWord 8 0x75 = some (.opReadList ⟨0, 0, 0, 0, []⟩) := by
  decide +kernel

theorem test_table_word_worker : decodeTableWord 8 0x0B = some .shutdown ∧
    decodeTableWord 8 0x1B = some (.wRead 0 false false) := by
  decide +kernel

/-- The step after placing the word runs `START` (V5.1). -/
theorem test_placed_start_runs : (nextOf (step (State.reset.withFetchWord 8 0x0A))).map
    (fun t => (t.lifecycle, t.phase, t.result)) = some (.running, .guard, .ok) := by decide +kernel

/-- The step after placing the selector of `SHUTDOWN.DONE` completes it (V5.9). -/
theorem test_placed_done_runs : (nextOf (step (State.reset.withFetchWord 8 0x10))).map
    (fun t => (t.lifecycle, t.result)) = some (.ready, .ok) := by decide +kernel

/-! ### Vectors of section 2.1 and program P1: the generator -/

/-- V1.10 in the three forms of R71, R72 and R73. -/
theorem test_crc_check_value :
    crc16 [0x31, 0x32, 0x33, 0x34, 0x35, 0x36, 0x37, 0x38, 0x39] = 0xBB3D ∧
    crc16Msb [0x31, 0x32, 0x33, 0x34, 0x35, 0x36, 0x37, 0x38, 0x39] = 0xBB3D ∧
    [0x31, 0x32, 0x33, 0x34, 0x35, 0x36, 0x37, 0x38, 0x39].foldl crcTableStep 0x0000 = 0xBB3D := by
  decide +kernel

/-- V1.4 and V1.6. -/
theorem test_crc_bit_order : crc16 [0x80] = 0xA001 ∧ crc16 [0xFF, 0xFF] = 0xB001 := by decide +kernel

theorem test_crcClr : (nextOf (exec .crcClr { State.reset with crcacc := 0x9432 })).map (fun t => t.crcacc) =
    some 0x0000 := by decide +kernel

/-- From a register that is not zero (section 2.1, streaming). -/
theorem test_crcUpd : (nextOf (exec (.crcUpd 0x32) { State.reset with crcacc := 0x9432 })).map
    (fun t => t.crcacc) = some 0x0094 := by decide +kernel

theorem test_crcGet : resultOf (exec .crcGet { State.reset with crcacc := 0x9432 }) = some (.word 0x9432) := by
  decide +kernel

/-- V1.11. -/
theorem test_crc16 : resultOf (exec (.crc16 (bytesF.take 11)) State.reset) = some (.word 0x9432) := by
  decide +kernel

/-! ### Section 2.2: the checker -/

/-- V2.3 and V2.4. -/
theorem test_chkVerify_byte_order :
    resultOf (exec (.chkVerify [0x01, 0xC1, 0xC0]) State.reset) = some (.verdict true) ∧
    resultOf (exec (.chkVerify [0x01, 0xC0, 0xC1]) State.reset) = some (.verdict false) := by decide +kernel

/-- V2.8. -/
theorem test_chkVerify_one_byte : refusalOf (exec (.chkVerify [0x00]) State.reset) = some .chkTooShort := rfl

/-! ### Section 2.3: the codec -/

/-- S4: the stale fields of the operand do not matter. -/
theorem test_enc_stale_fields :
    resultOf (exec (.enc ⟨0x0001, 0xF1F1, 0x09, 0x12, 0x34, 0x0B, [0x00, 0x01, 0x01], 0xFFFF⟩) State.reset) =
      some (.bytes bytesF) := by decide +kernel

/-- V3.10. -/
theorem test_enc_too_long : refusalOf (exec (.enc frameTooBig) State.reset) = some .encodeTooLong := by
  decide +kernel

/-- V3.12: the reserved bytes are kept. -/
theorem test_dec_keeps_reserved : resultOf (exec (.dec bytesR) State.reset) = some (.frame frameR) := by
  decide +kernel

/-- V3.14 and V3.20. -/
theorem test_dec_zero_and_length : resultOf (exec (.dec (zeros 10)) State.reset) = some (.error .emptyFrame) ∧
    refusalOf (exec (.dec [0x01, 0x00, 0xF1, 0xF1, 0x05, 0x00, 0x00, 0x0B, 0x00, 0x01, 0x01, 0x54, 0x94])
      State.reset) = some .decodeLengthInconsistent := by decide +kernel

/-! ### Section 2.4: the resynchronizer -/

theorem test_rsyFlush : (nextOf (exec .rsyFlush (at' .ready .idle bytesK))).map (fun t => t.abuf) = some [] := rfl

/-- The capacity `264 + RD_MAX` itself is reached, one byte more is refused (R97). -/
theorem test_rsyPush_capacity :
    (nextOf (exec (.rsyPush (zeros 520)) State.reset)).isSome = true ∧
    refusalOf (exec (.rsyPush (zeros 521)) State.reset) = some .bufferOverflow := by decide +kernel

/-- V5.21. -/
theorem test_rsyPush_running : refusalOf (exec (.rsyPush [0x00]) (at' .running .guard [])) = some .rsyNotReady := rfl

/-- V4.5, with two sinks. -/
theorem test_rsyStep_frame :
    (nextOf (exec .rsyStep { at' .ready .idle (bytesF ++ [0xAA]) with probes := [7, 9] })).map
      (fun t => (t.abuf, t.out, t.result)) =
      some ([0xAA], [⟨0, frameF⟩, ⟨1, frameF⟩], .step (.frame frameF)) := by decide +kernel

/-- V4.7 and V4.8. -/
theorem test_rsyStep_wait_and_slip :
    resultOf (exec .rsyStep (at' .ready .idle (0xEE :: bytesF))) = some (.step (.stopWait 251)) ∧
    resultOf (exec .rsyStep (at' .ready .idle
      [0x55, 0xAA, 0x01, 0x20, 0x01, 0x40, 0x00, 0x00, 0x00, 0x06, 0x60, 0x12])) =
      some (.step (.slip .checksumMismatch)) := by decide +kernel

/-- The drain of V4.6: eight slips, then a stall with fifteen bytes left. -/
theorem test_rsyDrain_stalls : (nextOf (exec .rsyDrain (at' .ready .idle (zeros 10 ++ bytesF)))).map
    (fun t => (t.abuf, t.result)) = some ([0x00, 0x00] ++ bytesF, .frames []) := by decide +kernel

/-- Program P2, lines 4 to 9, as one feed. -/
theorem test_rsyFeed : (nextOf (exec (.rsyFeed ([0x00, 0x00, 0x00, 0x06, 0x40, 0x2C, 0x02, 0x00, 0x01, 0x00] ++
      [0x02, 0x00, 0x00, 0x0C, 0x10, 0x20, 0xAD, 0xFF]))
    (at' .ready .idle [0xDE, 0xAD, 0x01, 0x00, 0x02, 0x00]))).map (fun t => (t.abuf, t.result)) =
    some ([], .frames [frameK, ⟨0x0002, 0x0001, 0x02, 0x00, 0x00, 0x0C, [0x10, 0x20], 0xFFAD⟩]) := by
  decide +kernel

/-! ### Section 2.5: the lifecycle and the worker -/

/-- V5.2. -/
theorem test_start_running : resultOf (exec .start (at' .running .read [0x01])) = some (.error .notReady) := rfl

/-- V5.6. -/
theorem test_shutdown_running : (nextOf (exec .shutdown (at' .running .read []))).map
    (fun t => (t.lifecycle, t.phase, t.result)) = some (.stopping, .read, .waiting) := rfl

/-- V5.7. -/
theorem test_shutdown_stopping : resultOf (exec .shutdown (at' .stopping .read [])) = some (.error .notRunning) := rfl

/-- V5.10. -/
theorem test_shutdownDone_worker_exists :
    refusalOf (exec .shutdownDone (at' .stopping .extract [])) = some .notEnabled := rfl

/-- V5.20. -/
theorem test_probe_running : refusalOf (exec (.probe 1) (at' .running .guard [])) = some .probeWhileNotReady := rfl

/-- V5.22. -/
theorem test_status : resultOf (exec .status (at' .invalid .idle [])) = some (.status .invalid) := rfl

/-- V5.23. -/
theorem test_reserved : refusalOf (exec .reserved0 State.reset) = some .cmdReserved ∧
    refusalOf (exec .reservedE State.reset) = some .cmdReserved ∧
    refusalOf (exec .reservedF State.reset) = some .cmdReserved := ⟨rfl, rfl, rfl⟩

/-- V5.12 and V5.13: cancellation is tested first, so validity is not consulted (R112). -/
theorem test_wGuard :
    (nextOf (exec .wGuard { at' .running .guard [] with tvalid := false })).map
      (fun t => (t.lifecycle, t.phase)) = some (.invalid, .idle) ∧
    (nextOf (exec .wGuard { at' .stopping .guard [] with tvalid := false })).map
      (fun t => (t.lifecycle, t.phase)) = some (.stopping, .idle) := ⟨rfl, rfl⟩

/-- V5.14, with an answer nobody asked for, and V5.15: the buffer is lost on a failed open too. -/
theorem test_wOpenchk :
    (nextOf (exec (.wOpenchk false true) (at' .running .openchk [0x01, 0x00]))).map
      (fun t => (t.abuf, t.topen, t.tvalid, t.phase)) = some ([0x01, 0x00], true, true, .read) ∧
    (nextOf (exec (.wOpenchk false false) { at' .running .openchk [0x01, 0x00] with topen := false })).map
      (fun t => (t.abuf, t.topen, t.phase)) = some ([], false, .read) := ⟨rfl, rfl⟩

/-- V5.17. -/
theorem test_wRead : (nextOf (exec (.wRead 2 true false)
      { at' .running .read [0x01] with tstream := [0x00, 0xF1, 0xF1] })).map
    (fun t => (t.abuf, t.tstream, t.rderr, t.tvalid, t.phase)) =
    some ([0x01, 0x00, 0xF1], [0xF1], true, true, .extract) := rfl

/-- Program P4, line 10: the read at the end of the data lets the transport become invalid. A transport that
offers more than `RD_MAX` delivers `RD_MAX` (R114, R119). -/
theorem test_wRead_end_and_bound :
    (nextOf (exec (.wRead 0 true true) (at' .running .read [0x02, 0x00, 0x01]))).map
      (fun t => (t.abuf, t.rderr, t.tvalid, t.phase)) = some ([0x02, 0x00, 0x01], true, false, .extract) ∧
    (nextOf (exec (.wRead 9 false false)
      { at' .running .read [] with tstream := [0x01, 0x02, 0x03], rdMax := 2 })).map
    (fun t => (t.abuf, t.tstream)) = some ([0x01, 0x02], [0x03]) := ⟨rfl, rfl⟩

/-- Program P3, line 21: `STOPPING` does not stop an extraction. -/
theorem test_wExtract_frame : (nextOf (exec .wExtract { at' .stopping .extract bytesK with probes := [4] })).map
    (fun t => (t.abuf, t.out, t.phase, t.result)) = some ([], [⟨0, frameK⟩], .extract, .none) := by decide +kernel

/-- V4.3 as the worker takes it. -/
theorem test_wExtract_stop : (nextOf (exec .wExtract (at' .running .extract (bytesF.take 10)))).map
    (fun t => (t.abuf, t.phase)) = some (bytesF.take 10, .errchk) := by decide +kernel

/-- V5.18, the transport coming to its end at the close, and V5.19, which requests nothing. -/
theorem test_wErrchk :
    (nextOf (exec (.wErrchk true) { at' .running .errchk [] with rderr := true })).map
      (fun t => (t.topen, t.tvalid, t.phase)) = some (false, false, .guard) ∧
    (nextOf (exec (.wErrchk true) (at' .running .errchk []))).map
      (fun t => (t.topen, t.tvalid, t.phase)) = some (true, true, .guard) := ⟨rfl, rfl⟩

/-! ### The wire -/

theorem test_frame_arrives : (nextOf (exec (.frame frameU) { State.reset with tstream := [0x55] })).map
    (fun t => (t.tstream, t.abuf)) =
    some ([0x55, 0x34, 0x12, 0x78, 0x56, 0x01, 0x00, 0x00, 0xFF, 0xAB, 0x2F, 0xAA], []) := by decide +kernel

theorem test_op_arrives : (nextOf (exec (.opReadTableBlock ⟨0x0001, 0xF1F1, 0x00, 0x00, [0x00, 0x01, 0x01]⟩)
    State.reset)).map (fun t => t.tstream) = some bytesF := by decide +kernel

/-! ### Witnesses: a state and operands that meet the hypotheses of each statement that has any -/

theorem witness_CrcTableStepIsByteStep : (0 : Nat) < 256 ∧ (255 : Nat) < 256 := by decide

theorem witness_CrcLawsHold : [0x01, 0x02].length = [0x03, 0x04].length ∧
    (12 : Nat) < bytesF.length ∧ (7 : Nat) < 8 ∧ (0 : Nat) < bytesF.length := by decide

theorem witness_AccumulatorIsPrivateToGenerator : usesCrcacc (.dec bytesF) = false ∧
    usesCrcacc (.chkVerify bytesF) = false ∧ usesCrcacc .wExtract = false := ⟨rfl, rfl, rfl⟩

theorem witness_ChkVerifyComparesTrailingChecksum : ([0x00] : List Byte).length < 2 := by decide

theorem witness_ChkVerifyIsZeroResidue : 2 ≤ ([0x00, 0x00] : List Byte).length ∧ 2 ≤ bytesF.length := by decide

/-- The largest payload `ENC` takes and the smallest it refuses. -/
theorem witness_EncWritesRecomputedFrame : frameBig.payload.length ≤ 255 ∧ frameK.payload.length ≤ 255 ∧
    255 < frameTooBig.payload.length := by decide +kernel

/-- One operand for each of the five verdicts, in the order they are tested: 9 bytes; 10 zero bytes; V3.16;
V3.1; V3.20. -/
theorem witness_DecTestsInOrderThenParses :
    (bytesK.take 9).length < 10 ∧
    (10 ≤ (zeros 10).length ∧ ∀ x ∈ zeros 10, x = 0x00) ∧
    (8 ≤ (zeros 8).length ∧ (∃ x ∈ zeros 8 ++ [0x00, 0x01], x ≠ 0x00) ∧
      crc16 (zeros 8) ≠ le16 0x00 0x01) ∧
    ((∃ x ∈ bytesF, x ≠ 0x00) ∧
      crc16 ([0x01, 0x00, 0xF1, 0xF1, 0x03, 0x00, 0x00, 0x0B] ++ [0x00, 0x01, 0x01]) = le16 0x32 0x94 ∧
      (0x03 : Byte).toNat = ([0x00, 0x01, 0x01] : List Byte).length) ∧
    (crc16 ([0x01, 0x00, 0xF1, 0xF1, 0x05, 0x00, 0x00, 0x0B] ++ [0x00, 0x01, 0x01]) = le16 0x54 0x94 ∧
      (0x05 : Byte).toNat ≠ ([0x00, 0x01, 0x01] : List Byte).length) := by decide +kernel

theorem witness_EncThenDecRoundTrips : (frameBig.payload.length ≤ 255 ∧ isZeroFrame frameBig = false) ∧
    (frameK.payload.length ≤ 255 ∧ isZeroFrame frameK = false) := by decide +kernel

/-- One decoded operand with zero reserved bytes and one (V3.12) with others. -/
theorem witness_DecThenEncKeepsOnlyZeroReserved : decFrame bytesF = .frame frameF ∧ bytesF.getD 5 0 = 0x00 ∧
    bytesF.getD 6 0 = 0x00 ∧ decFrame bytesR = .frame frameR ∧
    ¬ (bytesR.getD 5 0 = 0x00 ∧ bytesR.getD 6 0 = 0x00) := by decide +kernel

/-- The first bit of the first byte and the last bit of the last checksum byte; the largest frame. -/
theorem witness_SingleBitErrorsAreDetected : (frameF.payload.length ≤ 255 ∧ 0 < frameF.payload.length + 10 ∧
    12 < frameF.payload.length + 10 ∧ 0 < 8 ∧ 7 < 8) ∧
    (frameBig.payload.length ≤ 255 ∧ 264 < frameBig.payload.length + 10) := by decide +kernel

theorem witness_ZeroFrameIsTheOnlyUnreceivable : (10 ≤ 10) ∧
    isZeroFrame ⟨0, 0, 9, 8, 7, 0, [], 6⟩ = true ∧ frameBig.payload.length ≤ 255 := by decide +kernel

theorem witness_OperationByteIsPreserved : opByte .readList = opByte .readList := rfl

theorem witness_RsyFlushEmptiesBuffer : (at' .ready .idle bytesK).lifecycle = .ready := rfl

/-- A push that just fits and one that just does not. -/
theorem witness_RsyPushAppendsWithinCapacity : State.reset.lifecycle = .ready ∧
    State.reset.abuf.length + (zeros 520).length ≤ 264 + State.reset.rdMax ∧
    264 + State.reset.rdMax < State.reset.abuf.length + (zeros 521).length := by decide +kernel

/-- Buffers of 9 and 10 bytes, one byte short of a frame, a whole frame, an all-zero window, garbage. -/
theorem witness_RsyStepExtractsOrSlipsOneByte : State.reset.lifecycle = .ready ∧
    (bytesF.take 9).length < 10 ∧
    (10 ≤ (bytesF.take 10).length ∧ (bytesF.take 10).length < ((bytesF.take 10).getD 4 0).toNat + 10) ∧
    (10 ≤ (bytesF.take 12).length ∧ (bytesF.take 12).length < ((bytesF.take 12).getD 4 0).toNat + 10) ∧
    ((bytesF.getD 4 0).toNat + 10 ≤ bytesF.length ∧ decFrame (bytesF.take 13) = .frame frameF) ∧
    (((zeros 10).getD 4 0).toNat + 10 ≤ (zeros 10).length ∧ decFrame ((zeros 10).take 10) = .emptyFrame) ∧
    decFrame ((zeros 9 ++ [0x01]).take 10) = .checksumMismatch := by decide +kernel

theorem witness_HostRsyRefusedOutsideReady :
    isHostRsy (.rsyPush [0x00]) = true ∧ isHostRsy .rsyDrain = true ∧
    (at' .running .guard []).lifecycle ≠ .ready := ⟨rfl, rfl, by decide⟩

theorem witness_RsyDrainStopsWithinBound : (at' .ready .idle (zeros 10 ++ bytesF)).lifecycle = .ready := rfl

/-- On an empty buffer (no step before the stop) and on one of a single frame (one step before it). -/
theorem witness_RsyDrainIsRepeatedStep :
    (at' .ready .idle []).lifecycle = .ready ∧ (at' .ready .idle bytesK).lifecycle = .ready := ⟨rfl, rfl⟩

theorem witness_RsyFeedIsPushThenDrain : State.reset.lifecycle = .ready ∧
    State.reset.abuf.length + (zeros 520).length ≤ 264 + State.reset.rdMax := by decide +kernel

/-- V3.1 cut in two, with steps between, no step and an empty push; cuts that fill the buffer to its capacity; the
least number of steps asked for. -/
theorem witness_ChunkingDoesNotMatter : State.reset.lifecycle = .ready ∧
    State.reset.abuf.length + (bytesF.take 6).length + (bytesF.drop 6).length ≤ 264 + State.reset.rdMax ∧
    State.reset.abuf.length + (zeros 500).length + (zeros 20).length ≤ 264 + State.reset.rdMax ∧
    bytesF = [(bytesF.take 6, 2), ([], 0), (bytesF.drop 6, 1)].flatMap (fun c => c.1) ∧
    State.reset.abuf.length + bytesF.length ≤ 264 + State.reset.rdMax ∧
    State.reset.abuf.length + bytesF.length < 14 ∧
    zeros 520 = [(zeros 500, 0), (zeros 20, 3)].flatMap (fun c => c.1) ∧
    State.reset.abuf.length + (zeros 520).length ≤ 264 + State.reset.rdMax := by decide +kernel

/-- Program P2's garbage and frames with 255 bytes behind them, and one frame with nothing before it. -/
theorem witness_ResyncConvergesOverGarbage :
    (∀ x ∈ [([0xDE, 0xAD], frameK), ([], frameF)], sendable x.2 = true) ∧
    garbageSilent [([0xDE, 0xAD], frameK), ([], frameF)] (zeros 255) = true ∧
    255 ≤ (zeros 255).length ∧
    (at' .ready .idle (wireStream [([0xDE, 0xAD], frameK), ([], frameF)] (zeros 255))).lifecycle = .ready := by
  decide +kernel

theorem witness_StartCreatesWorkerOrNotReady : State.reset.lifecycle = .ready ∧
    (at' .running .guard []).lifecycle ≠ .ready := by decide

theorem witness_ShutdownRequestsStopOrNotRunning :
    (at' .running .read []).lifecycle = .running ∧ (at' .invalid .idle []).lifecycle = .invalid ∧
    State.reset.lifecycle = .ready ∧ (at' .stopping .idle []).lifecycle = .stopping := ⟨rfl, rfl, rfl, rfl⟩

theorem witness_ShutdownDoneCompletesWhenWorkerGone :
    (at' .stopping .idle []).lifecycle = .stopping ∧ (at' .stopping .idle []).phase = .idle := ⟨rfl, rfl⟩

/-- One place left, none left, and another state. -/
theorem witness_ProbeAppendsInReadyOnly : State.reset.lifecycle = .ready ∧
    (State.resetWith 256 1).probes.length < (State.resetWith 256 1).nprobeMax ∧
    (State.resetWith 256 0).probes.length = (State.resetWith 256 0).nprobeMax ∧
    (at' .stopping .guard []).lifecycle ≠ .ready := by decide

theorem witness_GuardTestsCancellationThenValidity :
    (at' .stopping .guard []).phase = .guard ∧ (at' .stopping .guard []).lifecycle ≠ .running ∧
    (at' .running .guard []).phase = .guard ∧ (at' .running .guard []).lifecycle = .running ∧
    (at' .running .guard []).tvalid = true ∧ { at' .running .guard [] with tvalid := false }.tvalid = false := by
  decide

theorem witness_OpenchkClearsOnClosedTransport : (at' .running .openchk []).phase = .openchk ∧
    (at' .running .openchk []).topen = true ∧
    { at' .running .openchk [] with topen := false }.topen = false := ⟨rfl, rfl, rfl⟩

theorem witness_ReadMovesStreamBytesInOrder : (at' .running .read [0x01]).phase = .read := rfl

theorem witness_ExtractIsOneInnerIteration : (at' .stopping .extract bytesF).phase = .extract := rfl

theorem witness_ErrchkClosesAfterReadError : (at' .running .errchk []).phase = .errchk ∧
    (at' .running .errchk []).rderr = false ∧ { at' .running .errchk [] with rderr := true }.rderr = true :=
  ⟨rfl, rfl, rfl⟩

/-- A block turn in each phase, and in `IDLE` with and without a pending completion. -/
theorem witness_BlockTurnRunsThePhasesStep :
    [Phase.guard, .openchk, .read, .extract, .errchk, .idle].all (fun p =>
      { at' .running p [] with turns := [.block quiet] }.turns == [.block quiet] &&
      { at' .running p [] with turns := [.block quiet] }.phase == p) = true ∧
    (at' .stopping .idle []).lifecycle = .stopping ∧ (at' .invalid .idle []).lifecycle ≠ .stopping := by decide

theorem witness_BlockStepsRefusedWhereNotEnabled :
    ¬ ((at' .running .idle []).lifecycle = .stopping ∧ (at' .running .idle []).phase = .idle) ∧
    ¬ ((at' .stopping .guard []).lifecycle = .stopping ∧ (at' .stopping .guard []).phase = .idle) ∧
    (at' .running .errchk []).phase ≠ .guard ∧ (at' .running .errchk []).phase ≠ .openchk ∧
    (at' .running .errchk []).phase ≠ .read ∧ (at' .running .errchk []).phase ≠ .extract ∧
    (at' .running .guard []).phase ≠ .errchk := by decide

theorem witness_AnyArrivingBytesJoinTheStream :
    { State.reset with turns := [.wire [0x55]] }.turns = .wire [0x55] :: [] := rfl

theorem witness_DecodeOfEncodeIsIdentity : wellFormed (.frame frameU) = true ∧
    wellFormed (.opReadVariable ⟨0x1234, 0xABCD, 0x12, 0x34, List.replicate 255 0x5A⟩) = true ∧
    wellFormed (.wRead 5 true true) = true := by decide +kernel

theorem witness_WireWordsHaveOneMeaning : decode (.wire bytesK) =
    .ok (.opAcknowledgeB ⟨0x0001, 0x0002, 0x00, 0x00, []⟩) := by decide +kernel

/-- A placed turn and the free turn each satisfy one of the two last clauses. -/
theorem witness_StepRunsTheDecodedInstruction :
    fetchWord (takeTurn { State.reset with turns := [.host 0xA .none] }).1
      (takeTurn { State.reset with turns := [.host 0xA .none] }).2 = some (.cmd 0xA .none) ∧
    decode (.cmd 0xA .none) = .ok .start ∧ State.reset.turns = [] := ⟨rfl, rfl, rfl⟩

theorem witness_SelectorNamesTheSteps : (0x19 : BitVec 5) &&& 0x07 = 0x01 ∧ (0x0A : BitVec 5) &&& 0x07 = 0x02 ∧
    (0x13 : BitVec 5) &&& 0x07 = 0x03 ∧ (0x04 : BitVec 5) &&& 0x07 = 0x04 ∧
    (0x1D : BitVec 5) &&& 0x07 = 0x05 := by decide

theorem witness_ResetMeetsReachableConditions : 1 ≤ 1 ∧ 1 ≤ Config.rdMaxDefault := by decide

/-- The invariant holds of a running worker whose buffer is at the bound, and its next step exists. -/
theorem witness_EveryStepKeepsReachableConditions :
    Inv { at' .running .read (zeros 264) with turns := [.block quiet] } ∧
    (nextOf (step { at' .running .read (zeros 264) with turns := [.block quiet] })).isSome = true :=
  ⟨⟨by decide, by decide, by decide, by decide +kernel, by decide +kernel, by decide, by decide⟩,
    by decide +kernel⟩

/-- One step for each of the five transitions. -/
theorem witness_OnlyFiveLifecycleTransitions :
    (nextOf (exec .start State.reset)).map (fun t => t.lifecycle) = some .running ∧
    (nextOf (exec .shutdown (at' .running .read []))).map (fun t => t.lifecycle) = some .stopping ∧
    (nextOf (exec .shutdown (at' .invalid .idle []))).map (fun t => t.lifecycle) = some .stopping ∧
    (nextOf (exec .shutdownDone (at' .stopping .idle []))).map (fun t => t.lifecycle) = some .ready ∧
    (nextOf (step { at' .running .guard [] with tvalid := false, turns := [.block quiet] })).map
      (fun t => t.lifecycle) = some .invalid := ⟨rfl, rfl, rfl, rfl, rfl⟩

theorem witness_OutputGrowsByWholeFrames :
    (nextOf (step { at' .running .extract bytesK with probes := [3], turns := [.block quiet] })).map
      (fun t => t.out) = some [⟨0, frameK⟩] := by decide +kernel

theorem witness_NoDispatchWithoutWorker : (at' .stopping .idle []).phase = .idle ∧
    (at' .stopping .idle []).lifecycle ≠ .ready ∧
    (nextOf (step { at' .stopping .idle [] with turns := [.block quiet] })).isSome = true := by decide

theorem witness_RegistryGrowsOnlyInReady :
    (nextOf (step { State.reset with turns := [.host 0xC (.sink 5)] })).map (fun t => t.probes) = some [5] := rfl

theorem witness_InvalidityAndParametersPersist : { State.reset with tvalid := false }.tvalid = false ∧
    (nextOf (step { State.reset with tvalid := false, turns := [.host 0xD .none] })).isSome = true := ⟨rfl, rfl⟩

/-- Each element changes in some step. -/
theorem witness_ElementsWrittenOnlyByOwners :
    (nextOf (exec (.rsyPush [0x01]) State.reset)).any (fun t => t.abuf != []) = true ∧
    (nextOf (exec .start State.reset)).any (fun t => t.phase != .idle) = true ∧
    (nextOf (exec (.wRead 0 true true) (at' .running .read []))).any (fun t => t.rderr && !t.tvalid) = true ∧
    (nextOf (exec (.wErrchk false) { at' .running .errchk [] with rderr := true })).any (fun t => !t.topen) = true ∧
    (nextOf (exec .rsyStep { at' .ready .idle bytesK with probes := [3] })).any (fun t => t.out != []) = true ∧
    (nextOf (exec (.frame frameU) State.reset)).any (fun t => t.tstream != []) = true := by decide +kernel

/-- The four errors that are returned. -/
theorem witness_ErrorsWriteNothing :
    resultOf (exec .start (at' .invalid .idle [])) = some (.error .notReady) ∧
    resultOf (exec .shutdown State.reset) = some (.error .notRunning) ∧
    resultOf (exec (.dec (zeros 10)) State.reset) = some (.error .emptyFrame) ∧
    resultOf (exec (.dec (zeros 9 ++ [0x01])) State.reset) = some (.error .checksumMismatch) := by decide +kernel

theorem witness_EnvironmentKeepsOffARunningTransport :
    { at' .running .guard [] with turns := [.env .closeT] }.turns = .env .closeT :: [] ∧
    EnvEvent.closeT ≠ .exhaustT ∧ (at' .running .guard []).lifecycle = .running ∧
    { at' .ready .idle [] with topen := false, turns := [.env (.openT true)] }.topen = false ∧
    (at' .invalid .idle []).lifecycle = .invalid ∧ State.reset.topen = true := by decide

theorem witness_DeadTransportCyclesToInvalid :
    { at' .invalid .idle [0x02, 0x00, 0x01] with tvalid := false }.lifecycle = .invalid ∧
    { at' .invalid .idle [0x02, 0x00, 0x01] with tvalid := false }.phase = .idle ∧
    { at' .invalid .idle [0x02, 0x00, 0x01] with tvalid := false }.tvalid = false := ⟨rfl, rfl, rfl⟩

/-- `RD_MAX` 1 and one byte buffered: exactly seven answers are enough to ask for. -/
theorem witness_ShutdownLatencyIsOneIteration :
    { at' .stopping .openchk [0x00] with rdMax := 1, turns := List.replicate 7 (.block quiet) }.turns =
      (List.replicate 7 quiet).map Turn.block ++ [] ∧
    { at' .stopping .openchk [0x00] with rdMax := 1 }.lifecycle = .stopping ∧
    ([0x00] : List Byte).length + 1 + 5 ≤ (List.replicate 7 quiet).length := by decide

end Sys2Proof.Tests
end

section
/-! PROOFS. How a step begins (R5, R6): the two equations of taking a turn, and the equation of a step whose
word decodes. -/

namespace Sys2Proof.Proofs

open Sys2Proof Sys2Proof.Machine

/-- The oldest placed turn goes first (log 1). -/
theorem takeTurn_of_cons {s : State} {t : Turn} {rest : List Turn} (hturns : s.turns = t :: rest) :
    takeTurn s = (t, { s with turns := rest }) := by
  simp only [takeTurn, hturns]

/-- With nothing placed the free turn decides, as R6 leaves it open who moves next (log 1). -/
theorem takeTurn_of_nil {s : State} (hturns : s.turns = []) :
    takeTurn s = (Config.freeTurn s.turnNo, { s with turnNo := s.turnNo + 1 }) := by
  simp only [takeTurn, hturns]

/-- A transaction whose turn presents a decodable word is that word's instruction, run on the state that is
left after the turn is taken. -/
theorem step_of_decode {s : State} {w : TransWord} {i : Instr}
    (hfetch : fetchWord (takeTurn s).1 (takeTurn s).2 = some w) (hdecode : decode w = .ok i) :
    step s = exec i (takeTurn s).2 := by
  simp only [step, hfetch, hdecode]

/-- Settles O46: the equation of a step whose word decodes, with the two ways a turn is taken. -/
theorem stepRunsTheDecodedInstruction : Obligations.StepRunsTheDecodedInstruction := by
  intro s w i hfetch hdecode
  exact ⟨step_of_decode hfetch hdecode, fun _ _ => takeTurn_of_cons, takeTurn_of_nil⟩

end Sys2Proof.Proofs
end

section
/-! PROOFS. The whole machine (R19, R21, R25, R27, R29): what a step that runs no instruction leaves alone, and
what every instruction and every step of every agent keeps. -/

namespace Sys2Proof.Proofs

open Sys2Proof Sys2Proof.Machine

/-! ### A step is an instruction, or it leaves the block alone -/

/-- The two kinds of step: an instruction run on the state with the turn taken, or a turn that writes nothing but
the transport's elements, the result port and the schedule. -/
theorem step_instr_or_transportOnly {s t : State} (h : step s = .next t) :
    (∃ q n i, Changes { s with turns := q, turnNo := n } i t) ∨
    ∃ q n stream isOpen isValid, t = { s with
      turns := q, turnNo := n, result := .none, tstream := stream, topen := isOpen, tvalid := isValid } := by
  cases step_changes h with
  | instr q n i _ hc => exact .inl ⟨q, n, i, hc⟩
  | nothing q n => exact .inr ⟨q, n, s.tstream, s.topen, s.tvalid, rfl⟩
  | bytes q n b => exact .inr ⟨q, n, s.tstream ++ b, s.topen, s.tvalid, rfl⟩
  | exhaust q n => exact .inr ⟨q, n, s.tstream, s.topen, false, rfl⟩
  | transport q n k o => exact .inr ⟨q, n, s.tstream.drop k, o, s.tvalid, rfl⟩

/-! ### The invariant of the reachable states (R29) -/

/-- Without a worker only `RUNNING` has to be ruled out (R29 items 1 to 3), and of the bounds on the buffer only
the capacity counts (item 6). -/
theorem inv_of_idle {t : State} (hidle : t.phase = .idle) (hrunning : t.lifecycle ≠ .running)
    (hcap : t.abuf.length ≤ abufCap t) (hprobes : t.probes.length ≤ t.nprobeMax) (hrd : 1 ≤ t.rdMax) : Inv t where
  ready_idle _ := hidle
  running_worker hr := absurd hr hrunning
  invalid_idle _ := hidle
  abuf_cap := hcap
  abuf_outside hp := absurd hidle hp
  probes_bound := hprobes
  rdMax_pos := hrd

/-- A worker exists in `RUNNING` and `STOPPING` only. -/
theorem inv_worker_lifecycle {s : State} (hs : Inv s) (hworker : s.phase ≠ .idle) :
    s.lifecycle ≠ .ready ∧ s.lifecycle ≠ .invalid :=
  ⟨fun hr => hworker (hs.ready_idle hr), fun hv => hworker (hs.invalid_idle hv)⟩

/-- A worker that moves to another phase and stays owes the invariant its bounds on the buffer only. -/
theorem inv_of_worker_stays {s t : State} (hs : Inv s) (hworker : s.phase ≠ .idle) (hstays : t.phase ≠ .idle)
    (hcap : t.abuf.length ≤ abufCap s) (houtside : t.phase ≠ .extract → t.abuf.length ≤ 264)
    (hlife : t.lifecycle = s.lifecycle) (hprobes : t.probes = s.probes) (hrd : t.rdMax = s.rdMax)
    (hnprobe : t.nprobeMax = s.nprobeMax) : Inv t := by
  obtain ⟨hready, hinvalid⟩ := inv_worker_lifecycle hs hworker
  exact {
    ready_idle := fun hr => absurd (hlife ▸ hr) hready
    running_worker := fun _ => hstays
    invalid_idle := fun hv => absurd (hlife ▸ hv) hinvalid
    abuf_cap := by simpa only [abufCap, hrd] using hcap
    abuf_outside := fun _ => houtside
    probes_bound := by simpa only [hprobes, hnprobe] using hs.probes_bound
    rdMax_pos := hrd ▸ hs.rdMax_pos }

/-- Every instruction keeps the invariant. A read meets its bound because at most 264 bytes wait in front of it;
they do so because the inner loop is left on a stop only (R103). -/
theorem changes_keep_inv {s t : State} {i : Instr} (hs : Inv s) (h : Changes s i t) : Inv t := by
  have hbound {p : Phase} (hp : s.phase = p) (hidle : p ≠ .idle) (hextract : p ≠ .extract) :
      s.abuf.length ≤ 264 := hs.abuf_outside (hp ▸ hidle) (hp ▸ hextract)
  cases h with
  | crc | resultOnly | wire => exact { hs with }
  | hostRsy rest fs r _ hl hlen =>
    have hcap : rest.length ≤ abufCap s := hlen.trans (max_le le_rfl hs.abuf_cap)
    exact inv_of_idle (hs.ready_idle hl) (by simp [hl]) hcap hs.probes_bound hs.rdMax_pos
  | start hl =>
    exact ⟨by simp, by simp, by simp, by simp, by simp, hs.probes_bound, hs.rdMax_pos⟩
  | shutdown hl => exact { hs with ready_idle := nofun, running_worker := nofun, invalid_idle := nofun }
  | probe k hl hroom =>
    have hprobes : (s.probes ++ [k]).length ≤ s.nprobeMax := by
      simpa using Nat.lt_of_le_of_ne hs.probes_bound hroom
    exact { hs with probes_bound := hprobes }
  | shutdownDone hl hp => exact inv_of_idle hp (by simp) hs.abuf_cap hs.probes_bound hs.rdMax_pos
  | guardCancelled hp hl => exact inv_of_idle rfl hl hs.abuf_cap hs.probes_bound hs.rdMax_pos
  | guardInvalid hp hl hv => exact inv_of_idle rfl (by simp) hs.abuf_cap hs.probes_bound hs.rdMax_pos
  | guardPassed hp | openchkOpen _ _ hp | errchkClose _ hp | errchkNoError _ hp =>
    exact inv_of_worker_stays hs (by simp [hp]) (by simp) hs.abuf_cap (fun _ => hbound hp nofun nofun)
      rfl rfl rfl rfl
  | openchkClosed ok d hp =>
    exact inv_of_worker_stays hs (by simp [hp]) (by simp) (Nat.zero_le _) (fun _ => Nat.zero_le _) rfl rfl rfl rfl
  | read n e d hp =>
    have hcap : (s.abuf ++ s.tstream.take (min n s.rdMax)).length ≤ abufCap s := by
      have hfront := hbound hp nofun nofun
      simp only [List.length_append, List.length_take, abufCap]
      omega
    exact inv_of_worker_stays hs (by simp [hp]) (by simp) hcap (by simp) rfl rfl rfl rfl
  | extract o rest fs hp hsuffix hstop =>
    have hcap : rest.length ≤ abufCap s := hsuffix.length_le.trans hs.abuf_cap
    cases ho : isStop o with
    | true =>
      obtain ⟨rfl, -, hshort⟩ := hstop ho
      exact inv_of_worker_stays hs (by simp [hp]) (by simp) hcap (fun _ => hshort) rfl rfl rfl rfl
    | false => exact inv_of_worker_stays hs (by simp [hp]) (by simp) hcap (by simp) rfl rfl rfl rfl

/-- Settles O50: an instruction keeps the invariant, and any other turn touches no element it speaks of. -/
theorem everyStepKeepsReachableConditions : Obligations.EveryStepKeepsReachableConditions := by
  intro s t hs h
  rcases step_instr_or_transportOnly h with ⟨q, n, i, hc⟩ | ⟨q, n, stream, isOpen, isValid, rfl⟩
  · have htaken : Inv { s with turns := q, turnNo := n } := { hs with }
    exact changes_keep_inv htaken hc
  · exact { hs with }

/-! ### The transitions of `STATE` (R19) -/

/-- The five transitions of R19, each with the instruction that makes it and its condition. -/
def LifecycleTransition (i : Instr) (s t : State) : Prop :=
  (i = .start ∧ s.lifecycle = .ready ∧ t.lifecycle = .running) ∨
  (i = .shutdown ∧ s.lifecycle = .running ∧ t.lifecycle = .stopping) ∨
  (i = .shutdown ∧ s.lifecycle = .invalid ∧ t.lifecycle = .stopping) ∨
  (i = .shutdownDone ∧ s.lifecycle = .stopping ∧ t.lifecycle = .ready ∧ s.phase = .idle) ∨
  (i = .wGuard ∧ s.lifecycle = .running ∧ t.lifecycle = .invalid ∧ s.tvalid = false)

/-- An instruction leaves `STATE` alone or makes one of the five transitions. -/
theorem changes_lifecycle {s t : State} {i : Instr} (h : Changes s i t) :
    t.lifecycle = s.lifecycle ∨ LifecycleTransition i s t := by
  cases h with
  | start hl => exact .inr (.inl ⟨rfl, hl, rfl⟩)
  | shutdown hl =>
    rcases hl with hrunning | hinvalid
    · exact .inr (.inr (.inl ⟨rfl, hrunning, rfl⟩))
    · exact .inr (.inr (.inr (.inl ⟨rfl, hinvalid, rfl⟩)))
  | shutdownDone hl hp => exact .inr (.inr (.inr (.inr (.inl ⟨rfl, hl, rfl, hp⟩))))
  | guardInvalid hp hl hv => exact .inr (.inr (.inr (.inr (.inr ⟨rfl, hl, rfl, hv⟩))))
  | _ => exact .inl rfl

/-- A step leaves `STATE` alone or makes one of the five transitions by the instruction it runs. -/
theorem step_lifecycle {s t : State} (h : step s = .next t) :
    t.lifecycle = s.lifecycle ∨ ∃ i, LifecycleTransition i s t := by
  rcases step_instr_or_transportOnly h with ⟨q, n, i, hc⟩ | ⟨q, n, stream, isOpen, isValid, rfl⟩
  · exact (changes_lifecycle hc).imp_right fun htransition => ⟨i, htransition⟩
  · exact .inl rfl

/-- Settles O51: both halves read off the transition that an instruction can make. -/
theorem onlyFiveLifecycleTransitions : Obligations.OnlyFiveLifecycleTransitions := by
  refine ⟨fun i s t h hne => (changes_lifecycle (exec_changes h)).resolve_left hne, fun s t h => ?_⟩
  rcases step_lifecycle h with hsame | ⟨i, htransition⟩
  · rw [hsame]
    cases s.lifecycle <;> simp
  · rcases htransition with ⟨-, hs, ht⟩ | ⟨-, hs, ht⟩ | ⟨-, hs, ht⟩ | ⟨-, hs, ht, -⟩ | ⟨-, hs, ht, -⟩ <;>
      simp [hs, ht]

/-! ### The output trace (R25, R41) -/

/-- An instruction adds whole frames to the output trace: those its run of the inner loop confirms, and none
otherwise. -/
theorem changes_out {s t : State} {i : Instr} (h : Changes s i t) :
    ∃ fs, t.out = s.out ++ emitted s.probes fs := by
  cases h with
  | hostRsy rest fs => exact ⟨fs, rfl⟩
  | extract o rest fs => exact ⟨fs, rfl⟩
  | _ => exact ⟨[], by simp⟩

/-- Settles O52: only an instruction emits, and it emits whole frames. -/
theorem outputGrowsByWholeFrames : Obligations.OutputGrowsByWholeFrames := by
  intro s t h
  rcases step_instr_or_transportOnly h with ⟨q, n, i, hc⟩ | ⟨q, n, stream, isOpen, isValid, rfl⟩
  · obtain ⟨fs, hout⟩ := changes_out hc
    exact ⟨fs, hout⟩
  · exact ⟨[], by simp⟩

/-! ### The probe registry (R21, R43) -/

/-- An instruction leaves the registry alone, or it is `PROBE` in `READY` and appends its sink. -/
theorem changes_probes {s t : State} {i : Instr} (h : Changes s i t) :
    t.probes = s.probes ∨ (s.lifecycle = .ready ∧ ∃ k, i = .probe k ∧ t.probes = s.probes ++ [k]) := by
  cases h with
  | probe k hl => exact .inr ⟨hl, k, rfl, rfl⟩
  | _ => exact .inl rfl

/-- Settles O54: only `PROBE` writes the registry. -/
theorem registryGrowsOnlyInReady : Obligations.RegistryGrowsOnlyInReady := by
  intro s t h
  rcases step_instr_or_transportOnly h with ⟨q, n, i, hc⟩ | ⟨q, n, stream, isOpen, isValid, rfl⟩
  · rcases changes_probes hc with hsame | ⟨hl, k, -, hprobes⟩
    · exact .inl hsame
    · exact .inr ⟨hl, k, hprobes⟩
  · exact .inl rfl

/-! ### The state after reset (R27, R29) -/

/-- Settles O48: each element has the value that `State.resetWith` gives it. -/
theorem resetValues : Obligations.ResetValues :=
  ⟨rfl, rfl, rfl, rfl, rfl, rfl, rfl⟩

/-- Settles O49: after reset there is no worker, and the buffer and the registry are empty. -/
theorem resetMeetsReachableConditions : Obligations.ResetMeetsReachableConditions := by
  intro rdMax nprobeMax hrd
  exact inv_of_idle rfl nofun (Nat.zero_le _) (Nat.zero_le _) hrd

end Sys2Proof.Proofs
end

section
/-! PROOFS. Who dispatches (R42, R124): an instruction that writes the output trace is a buffer operation of the
host in `READY` or the worker's extraction. -/

namespace Sys2Proof.Proofs

open Sys2Proof Sys2Proof.Machine

/-- The two writers of the output trace: the host's buffer operations, which need `READY`, and `W.EXTRACT`, which
needs a worker in its extraction phase. -/
theorem changes_out_owner {s t : State} {i : Instr} (h : Changes s i t) :
    t.out = s.out ∨ (isHostRsy i = true ∧ s.lifecycle = .ready) ∨ (i = .wExtract ∧ s.phase = .extract) := by
  cases h with
  | hostRsy rest fs r hi hl => exact .inr (.inl ⟨hi, hl⟩)
  | extract o rest fs hp => exact .inr (.inr ⟨rfl, hp⟩)
  | _ => exact .inl rfl

/-- Settles O53: outside `READY` the host's writers are shut out, and without a worker the worker's is. -/
theorem noDispatchWithoutWorker : Obligations.NoDispatchWithoutWorker := by
  intro s t hidle hnotReady h
  rcases step_instr_or_transportOnly h with ⟨q, n, i, hc⟩ | ⟨q, n, stream, isOpen, isValid, rfl⟩
  · rcases changes_out_owner hc with hsame | ⟨-, hready⟩ | ⟨-, hextract⟩
    · exact hsame
    · exact absurd hready hnotReady
    · exact absurd (hidle.symm.trans hextract) nofun
  · rfl

end Sys2Proof.Proofs
end

section
/-! PROOFS. The encodings (30_encoding.md): the command port's reserved codes (R61), the selector (R63), the wire and
its arriving bytes (R51, R57 to R59), and the two pseudo-operations that stand for command sequences (R65). -/

namespace Sys2Proof.Proofs

open Sys2Proof Sys2Proof.Machine

/-! ### The expansions of the pseudo-operations (R65) -/

/-- A command that gives a next state hands that state to the rest of the sequence. -/
theorem execAll_cons_of_next {i : Instr} {is : List Instr} {s t : State} (h : exec i s = .next t) :
    execAll (i :: is) s = execAll is t := by
  simp only [execAll, h]

/-- A refused command ends its sequence. -/
theorem execAll_cons_of_refused {i : Instr} {is : List Instr} {s : State} {r : Refusal}
    (h : exec i s = .refused r) : execAll (i :: is) s = .refused r := by
  simp only [execAll, h]

/-- A sequence of one command answers what the command answers. -/
theorem execAll_singleton (i : Instr) (s : State) : execAll [i] s = exec i s := by
  simp only [execAll]
  cases exec i s <;> rfl

/-- `CRC_XOROUT` is zero, so `CRC.GET` reads the register as it is (R70, R76). -/
theorem xor_crcXorOut (v : Word16) : v ^^^ Config.crcXorOut = v := BitVec.xor_zero

/-- `CRC.UPD` over some bytes, then `CRC.GET`: the fold of the byte step from where the register stands (R75, R76). -/
theorem execAll_crcUpds_crcGet (b : List Byte) (s : State) :
    execAll (b.map Instr.crcUpd ++ [.crcGet]) s =
      .next { s with crcacc := crcFold s.crcacc b, result := .word (crcFold s.crcacc b) } := by
  induction b generalizing s with
  | nil =>
    have hget : exec .crcGet s = .next { s with result := .word (s.crcacc ^^^ Config.crcXorOut) } := rfl
    rw [List.map_nil, List.nil_append, execAll_singleton, hget, xor_crcXorOut]
    rfl
  | cons x b ih =>
    have hupd : exec (.crcUpd x) s = .next { s with crcacc := crcStep s.crcacc x, result := .none } := rfl
    rw [List.map_cons, List.cons_append, execAll_cons_of_next hupd, ih]
    rfl

/-- The pseudo-operation `CRC16` in one equation (R65, R72). -/
theorem exec_crc16_eq (b : List Byte) (s : State) :
    exec (.crc16 b) s = .next { s with crcacc := crc16 b, result := .word (crc16 b) } := by
  have hexec : exec (.crc16 b) s =
      .next { s with crcacc := crc16 b, result := .word (crc16 b ^^^ Config.crcXorOut) } := rfl
  rw [hexec, xor_crcXorOut]

/-- Settles O8: `CRC.CLR` sets the register to where `CRC16` starts, and the updates fold from there. -/
theorem pseudoCrc16IsItsExpansion : Obligations.PseudoCrc16IsItsExpansion := by
  intro b s
  have hclr : exec .crcClr s = .next { s with crcacc := Config.crcInit, result := .none } := rfl
  refine ⟨?_, exec_crc16_eq b s⟩
  rw [List.cons_append, execAll_cons_of_next hclr, execAll_crcUpds_crcGet, exec_crc16_eq]
  rfl

/-- Outside `READY` the host's buffer operations are refused (R95). -/
theorem exec_hostRsy_of_not_ready {i : Instr} {s : State} (hi : isHostRsy i = true) (hl : s.lifecycle ≠ .ready) :
    exec i s = .refused .rsyNotReady := by
  cases i with
  | rsyFlush | rsyPush | rsyStep | rsyDrain | rsyFeed => exact if_neg hl
  | _ => cases hi

/-- Beyond the capacity a push is refused (R97). -/
theorem exec_rsyPush_of_overflow {s : State} {b : List Byte} (hl : s.lifecycle = .ready)
    (hover : abufCap s < s.abuf.length + b.length) : exec (.rsyPush b) s = .refused .bufferOverflow := by
  simp [exec, execRsyPush, whenReady, hl, pushBytes, hover, answerOf]

/-- Beyond the capacity a feed is refused as its push is (R97, log 11). -/
theorem exec_rsyFeed_of_overflow {s : State} {b : List Byte} (hl : s.lifecycle = .ready)
    (hover : abufCap s < s.abuf.length + b.length) : exec (.rsyFeed b) s = .refused .bufferOverflow := by
  simp [exec, execRsyFeed, whenReady, hl, pushBytes, hover, Except.bind, answerOf]

/-- The iteration stops only on a buffer shorter than the longest frame (R103). -/
theorem length_le_of_pureStep_stop {b : List Byte} (h : isStop (pureStep b).1 = true) : b.length ≤ 264 := by
  have hbounds := frameLength_bounds b
  by_contra hlong
  have hstop : (pureStep b).2 = b := by
    rcases pureStep_stop_or_shorter b with ⟨-, hsame⟩ | ⟨hgoes, -⟩
    · exact hsame
    · simp [hgoes] at h
  have hshort : ¬ b.length < 10 := by omega
  have hwait : ¬ b.length < frameLength b := by omega
  simp only [pureStep, hshort, hwait, if_false] at h
  split at h <;> simp [isStop] at h

/-- A drain with fuel for every buffered byte ends where the next iteration stops (R99, R100 item 8). -/
theorem pureDrain_ends_at_stop {n : Nat} {b : List Byte} (h : b.length < n) :
    isStop (pureStep (pureDrain n b).2).1 = true := by
  induction n generalizing b with
  | zero => omega
  | succ n ih =>
    rw [pureDrain_succ]
    rcases pureStep_stop_or_shorter b with ⟨hstop, -⟩ | ⟨hgoes, hshorter⟩
    · simp [hstop]
    · simpa [hgoes] using ih (show (pureStep b).2.length < n by omega)

/-- A drain leaves at most 264 bytes (R103). -/
theorem drainOf_rest_length_le (b : List Byte) : (drainOf b).2.length ≤ 264 :=
  length_le_of_pureStep_stop (pureDrain_ends_at_stop (Nat.lt_succ_self _))

/-- `RSY.FEED` answers what its expansion answers: both are refused outside `READY` and beyond the capacity, and
within it both drain the buffer with the bytes appended (R65, R95, R97). -/
theorem exec_rsyFeed_eq_expansion (b : List Byte) (s : State) :
    exec (.rsyFeed b) s = execAll [.rsyPush b, .rsyDrain] s := by
  by_cases hl : s.lifecycle = .ready
  · by_cases hcap : s.abuf.length + b.length ≤ abufCap s
    · have hdrain : exec .rsyDrain { s with abuf := s.abuf ++ b, result := .none } =
          .next (drained s (s.abuf ++ b)) := exec_rsyDrain_eq hl
      rw [exec_rsyFeed_eq hl hcap, execAll_cons_of_next (exec_rsyPush_eq hl hcap), execAll_singleton, hdrain]
    · have hover := Nat.lt_of_not_le hcap
      rw [exec_rsyFeed_of_overflow hl hover, execAll_cons_of_refused (exec_rsyPush_of_overflow hl hover)]
  · rw [exec_hostRsy_of_not_ready rfl hl, execAll_cons_of_refused (exec_hostRsy_of_not_ready rfl hl)]

/-- Settles O24: the expansion by its three cases; what is left and dispatched is the drain's of the whole buffer. -/
theorem rsyFeedIsPushThenDrain : Obligations.RsyFeedIsPushThenDrain := by
  refine ⟨exec_rsyFeed_eq_expansion, fun b s hl hcap => ?_⟩
  exact ⟨(drainOf (s.abuf ++ b)).1, (drainOf (s.abuf ++ b)).2, exec_rsyFeed_eq hl hcap, pureDrain_suffix _ _,
    drainOf_rest_length_le _⟩

/-! ### The operation byte (R57, R58) -/

/-- The name table never gives two names to one byte: the byte reads back as its name. -/
theorem opByte_injective : Function.Injective opByte := by
  intro m n h
  have hname : opName (opByte m) = opName (opByte n) := congrArg opName h
  simpa using hname

/-- Settles O17: the tag keeps the raw byte, and a name is read back from its byte. -/
theorem operationByteIsPreserved : Obligations.OperationByteIsPreserved :=
  ⟨opCodeByte_opCodeOf, fun _ _ h => opByte_injective h⟩

/-! ### The reserved command codes (R61) -/

/-- Settles O32: the three codes take no operand, and their rows are refused without reading the state. -/
theorem reservedCommandsAreRefused : Obligations.ReservedCommandsAreRefused :=
  ⟨fun _ => ⟨rfl, rfl, rfl⟩, fun _ => ⟨rfl, rfl, rfl⟩⟩

/-! ### The wire (R51, R57 to R59) -/

/-- Settles O42: the layout is header, payload and checksum, and the header has eight bytes. -/
theorem frameLayoutIsLittleEndian : Obligations.FrameLayoutIsLittleEndian :=
  fun f => ⟨rfl, frameBytes_length f⟩

/-- The `FRAME` row appends the frame's bytes to the inbound stream (R51, log 6). -/
theorem exec_frame_eq (f : Frame) (s : State) :
    exec (.frame f) s = .next { s with tstream := s.tstream ++ frameBytes f, result := .none } := rfl

/-- An OPBYTE row appends the frame with its own byte at offset 7 (R57, log 6). -/
theorem exec_opInstr_eq (n : OpName) (w : WireFields) (s : State) :
    exec (opInstr n w) s =
      .next { s with tstream := s.tstream ++ frameBytes (wireFrame (opByte n) w), result := .none } := by
  cases n <;> rfl

/-- Settles O40: the `FRAME` row, then the OPBYTE row of each name with the byte of R57. -/
theorem wireRowsAppendTheirFrame : Obligations.WireRowsAppendTheirFrame := by
  refine ⟨exec_frame_eq, ?_⟩
  rintro w s _ rfl
  exact ⟨exec_opInstr_eq .readTableBlock w s, exec_opInstr_eq .acknowledgeA w s,
    exec_opInstr_eq .acknowledgeB w s, exec_opInstr_eq .writeTableBlock w s,
    exec_opInstr_eq .changeTableName w s, exec_opInstr_eq .negativeAcknowledge w s,
    exec_opInstr_eq .alarmPacket w s, exec_opInstr_eq .readObjectData w s,
    exec_opInstr_eq .readVariable w s, exec_opInstr_eq .writeForceVariable w s,
    exec_opInstr_eq .autoVariableReport w s, exec_opInstr_eq .readList w s⟩

/-- The row a received frame is spelt by appends the very bytes it was decoded from (R51, R58). -/
theorem exec_frameInstr_of_decFrame {b : List Byte} {f : Frame} (h : decFrame b = .frame f) (s : State) :
    exec (frameInstr f) s = .next { s with tstream := s.tstream ++ b, result := .none } := by
  obtain ⟨hbytes, hlen, hck, -⟩ := decFrame_frame h
  cases hname : opName f.op with
  | none => rw [frameInstr, hname, exec_frame_eq, hbytes]
  | some n =>
    have hframe : wireFrame (opByte n) (wireFields f) = f := by
      rw [← opName_some hname, wireFrame_wireFields hlen hck]
    rw [frameInstr, hname, exec_opInstr_eq, hframe, hbytes]

/-- Wire bytes decode to the row of the frame `DEC` gives, or to no instruction (R59). -/
theorem decodeWire_cases (b : List Byte) :
    (∃ f, decFrame b = .frame f ∧ decode (.wire b) = .ok (frameInstr f)) ∨ ∃ e, decode (.wire b) = .error e := by
  simp only [decode, decodeWire]
  cases decFrame b with
  | frame f => exact .inl ⟨f, rfl, rfl⟩
  | emptyFrame | checksumMismatch | tooShort | lengthInconsistent => exact .inr ⟨_, rfl⟩

/-- A turn whose word does not decode runs no instruction. -/
theorem step_of_decode_error {s : State} {w : TransWord} {e : DecodeReject}
    (hfetch : fetchWord (takeTurn s).1 (takeTurn s).2 = some w) (hdecode : decode w = .error e) :
    step s = noInstruction (takeTurn s).1 (takeTurn s).2 := by
  simp only [step, hfetch, hdecode]

/-- Settles O41: bytes that are a frame arrive by the row they decode to, any others as a turn without an
instruction. -/
theorem anyArrivingBytesJoinTheStream : Obligations.AnyArrivingBytesJoinTheStream := by
  intro s b rest hturns
  have htake := takeTurn_of_cons hturns
  have hfetch : fetchWord (takeTurn s).1 (takeTurn s).2 = some (.wire b) := by rw [htake]; rfl
  rcases decodeWire_cases b with ⟨f, hframe, hdecode⟩ | ⟨e, hdecode⟩
  · rw [step_of_decode hfetch hdecode, htake, exec_frameInstr_of_decFrame hframe]
  · rw [step_of_decode_error hfetch hdecode, htake]
    rfl

/-! ### The selector (R63) -/

/-- `SEL = (STATE << 3) | PHASE` as a number. -/
theorem selOf_toNat (s : State) :
    (selOf s).toNat = (lifecycleCode s.lifecycle).toNat * 8 + (phaseCode s.phase).toNat := by
  rw [selOf, BitVec.toNat_append, ← Nat.shiftLeft_add_eq_or_of_lt (phaseCode s.phase).isLt, Nat.shiftLeft_eq]

/-- The phase bits of a selector word are what the mask 0x07 leaves of it. -/
theorem selPhase_toNat (c : BitVec 5) : (selPhase c).toNat = (c &&& 0x07).toNat := by
  have hmask : c.toNat &&& 7 = c.toNat % 2 ^ 3 := Nat.and_two_pow_sub_one_eq_mod c.toNat 3
  simpa [selPhase] using hmask.symm

/-- `SHUTDOWN.DONE` is named by all five bits: of the words with phase code 0 only 0x10 decodes. -/
theorem decode_sel_eq_shutdownDone (c : BitVec 5) (a : TAnswer) :
    decode (.sel c a) = .ok .shutdownDone ↔ c = 0x10 := by
  constructor
  · intro h
    simp only [decode, decodeSel] at h
    split at h
    · simpa using h
    all_goals simp at h
  · rintro rfl
    rfl

/-- Settles O47: the codes by their tables, the selector as a number, and each step by the bits that name it. -/
theorem selectorNamesTheSteps : Obligations.SelectorNamesTheSteps := by
  refine ⟨⟨rfl, rfl, rfl, rfl⟩, ⟨rfl, rfl, rfl, rfl, rfl, rfl⟩, selOf_toNat, fun c a => ?_⟩
  have hdecode {k : BitVec 5} (h : c &&& 0x07 = k) : (selPhase c).toNat = k.toNat := h ▸ selPhase_toNat c
  refine ⟨fun h => ?_, fun h => ?_, fun h => ?_, fun h => ?_, fun h => ?_, decode_sel_eq_shutdownDone c a⟩
  all_goals simp [decode, decodeSel, hdecode h]

end Sys2Proof.Proofs
end

section
/-! PROOFS. The CRC generator (40_crc.md): the three forms of the byte step (R71 to R73), the laws of the function
(R77), the three commands (R74 to R76) and what leaves `CRCACC` alone (R78). -/

namespace Sys2Proof.Proofs

open Sys2Proof Sys2Proof.Machine

/-! ### Reflection carries the right-shifting register to the left-shifting one (R71, R72) -/

/-- R11 bit by bit. -/
theorem reflect_getLsbD {n i : Nat} (v : BitVec n) (hi : i < n) : (reflect v).getLsbD i = v.getLsbD (n - 1 - i) := by
  rw [reflect, BitVec.getLsbD_reverse, BitVec.getMsbD_eq_getLsbD]
  simp [hi]

@[simp] theorem reflect_reflect {n : Nat} (v : BitVec n) : reflect (reflect v) = v := BitVec.reverse_reverse_eq

theorem reflect_xor {n : Nat} (a b : BitVec n) : reflect (a ^^^ b) = reflect a ^^^ reflect b := by
  apply BitVec.eq_of_getLsbD_eq
  intro i hi
  simp only [reflect_getLsbD _ hi, BitVec.getLsbD_xor]

theorem reflect_ushiftRight_one (c : Word16) : reflect (c >>> 1) = reflect c <<< 1 := by
  apply BitVec.eq_of_getLsbD_eq
  intro i hi
  rw [reflect_getLsbD _ hi, BitVec.getLsbD_ushiftRight, BitVec.getLsbD_shiftLeft]
  cases i with
  | zero => simp
  | succ i =>
    rw [reflect_getLsbD _ (by omega), show 1 + (16 - 1 - (i + 1)) = 16 - 1 - (i + 1 - 1) by omega]
    simp [hi]

/-- A byte in the low half reflects to the reflected byte in the high half. -/
theorem reflect_setWidth_byte (b : Byte) : reflect (b.setWidth 16) = (reflect b).setWidth 16 <<< 8 := by
  apply BitVec.eq_of_getLsbD_eq
  intro i hi
  rw [reflect_getLsbD _ hi, BitVec.getLsbD_setWidth, BitVec.getLsbD_shiftLeft, BitVec.getLsbD_setWidth]
  by_cases hlow : i < 8
  · simp [hlow, BitVec.getLsbD_of_ge b (15 - i) (by omega)]
  · rw [reflect_getLsbD _ (by omega), show 8 - 1 - (i - 8) = 16 - 1 - i by omega]
    simp [hi, hlow, show 15 - i < 16 by omega, show i - 8 < 16 by omega]

theorem reflect_crcPoly : reflect Config.crcPoly = crcRpoly := by decide

/-- One bit-step of R71 on the reflected register is one bit-step of R72. -/
theorem crcMsbBit_reflect (c : Word16) : crcMsbBit (reflect c) = reflect (crcBit c) := by
  have htop : (reflect c).getLsbD 15 = c.getLsbD 0 := reflect_getLsbD c (by omega)
  have hpoly : reflect crcRpoly = Config.crcPoly := by rw [← reflect_crcPoly, reflect_reflect]
  simp only [crcMsbBit, crcBit, htop]
  split
  · rw [reflect_xor, reflect_ushiftRight_one, hpoly]
  · rw [reflect_ushiftRight_one]

/-- One byte of R71 on the reflected register is one byte step of R72. -/
theorem crcMsbStep_reflect (c : Word16) (b : Byte) : crcMsbStep (reflect c) b = reflect (crcStep c b) := by
  have hbits : Function.Semiconj reflect crcBit crcMsbBit := fun c => (crcMsbBit_reflect c).symm
  rw [crcMsbStep, ← reflect_setWidth_byte, ← reflect_xor]
  exact (hbits.iterate_right 8 _).symm

/-- The two procedures agree, since the zero register is its own reflection. -/
theorem crc16Msb_eq_crc16 (s : List Byte) : crc16Msb s = crc16 s := by
  have hinit : reflect Config.crcInit = Config.crcInit := by decide
  have hfold : s.foldl crcMsbStep (reflect Config.crcInit) = reflect (crc16 s) :=
    List.foldl_hom reflect crcMsbStep_reflect
  rw [hinit] at hfold
  rw [crc16Msb, hfold, reflect_reflect, xor_crcXorOut]

/-- Settles O4, by the reflection of the register after every byte. -/
theorem crcMsbAndLsbFormsAgree : Obligations.CrcMsbAndLsbFormsAgree :=
  ⟨reflect_crcPoly, crc16Msb_eq_crc16⟩

/-! ### The byte step in two halves (R73) -/

/-- As long as zeros are shifted out the polynomial does not enter. -/
theorem crcBits_eq_ushiftRight {n : Nat} {c : Word16} (h : ∀ i < n, c.getLsbD i = false) :
    crcBit^[n] c = c >>> n := by
  induction n generalizing c with
  | zero => simp
  | succ n ih =>
    have hbit : crcBit c = c >>> 1 := by rw [crcBit, h 0 (by omega), if_neg Bool.false_ne_true]
    have hrest : ∀ i < n, (c >>> 1).getLsbD i = false := fun i hi => by
      rw [BitVec.getLsbD_ushiftRight]
      exact h _ (by omega)
    rw [Function.iterate_succ_apply, hbit, ih hrest, ← BitVec.shiftRight_add, Nat.add_comm]

/-- The register's own low byte cancels it, and eight zeros are shifted out. -/
theorem crcStep_lo8 (c : Word16) : crcStep c (lo8 c) = c >>> 8 := by
  have hlow : ∀ i < 8, (c ^^^ (lo8 c).setWidth 16).getLsbD i = false := fun i hi => by
    rw [BitVec.getLsbD_xor, BitVec.getLsbD_setWidth, lo8_getLsbD]
    simp [hi, show i < 16 by omega]
  rw [crcStep, crcBits_eq_ushiftRight hlow, BitVec.ushiftRight_xor_distrib]
  have hgone : (lo8 c).setWidth 16 >>> 8 = 0#16 := by
    apply BitVec.eq_of_getLsbD_eq
    intro i _
    simp [BitVec.getLsbD_ushiftRight]
  rw [hgone, BitVec.xor_zero]

/-- The high half moves down, and the low half with the byte goes through a step from zero. -/
theorem crcStep_eq_halves (c : Word16) (b : Byte) : crcStep c b = (c >>> 8) ^^^ crcStep 0 (lo8 c ^^^ b) := by
  have hregister : c ^^^ 0 = c := BitVec.xor_zero
  have hbyte : lo8 c ^^^ (lo8 c ^^^ b) = b := by rw [← BitVec.xor_assoc, BitVec.xor_self, BitVec.zero_xor]
  calc crcStep c b = crcStep (c ^^^ 0) (lo8 c ^^^ (lo8 c ^^^ b)) := by rw [hregister, hbyte]
    _ = (c >>> 8) ^^^ crcStep 0 (lo8 c ^^^ b) := by rw [crcStep_xor, crcStep_lo8]

/-- The table index of R73 is the low byte of the register against the byte. -/
theorem crcTableIndex_eq (c : Word16) (b : Byte) :
    ((c ^^^ b.setWidth 16) &&& 0x00FF).toNat = (lo8 c ^^^ b).toNat := by
  have hmask : ((c ^^^ b.setWidth 16) &&& 0x00FF).toNat = (c ^^^ b.setWidth 16).toNat % 2 ^ 8 :=
    Nat.and_two_pow_sub_one_eq_mod _ 8
  have hlow : (lo8 c).toNat = c.toNat % 2 ^ 8 := by simp [lo8]
  have hbyte : (b.setWidth 16).toNat = b.toNat := by simp; omega
  rw [hmask, BitVec.toNat_xor, BitVec.toNat_xor, Nat.xor_mod_two_pow, hlow, hbyte, Nat.mod_eq_of_lt b.isLt]

theorem crcTable_length : crcTable.length = 256 := by decide +kernel

/-- The printed table against R72: a finite fact about its 256 entries. -/
theorem crcTable_getD : ∀ i < 256, crcTable.getD i 0 = crcStep 0 (BitVec.ofNat 8 i) := by decide +kernel

theorem crcTableStep_eq_crcStep (c : Word16) (b : Byte) : crcTableStep c b = crcStep c b := by
  rw [crcTableStep, crcTableIndex_eq, crcTable_getD _ (lo8 c ^^^ b).isLt, BitVec.ofNat_toNat, BitVec.setWidth_eq,
    ← crcStep_eq_halves]

/-- Settles O5: the entries by evaluation, the step by its two halves. -/
theorem crcTableStepIsByteStep : Obligations.CrcTableStepIsByteStep :=
  ⟨crcTable_length, crcTable_getD, crcTableStep_eq_crcStep⟩

/-! ### The laws of `CRC16` (R77) -/

/-- Law 2. -/
theorem crc16_append (s t : List Byte) : crc16 (s ++ t) = crcFold (crc16 s) t := crcFold_append _ s t

/-- Law 3: zeros leave the zero register alone. -/
theorem crc16_zeros (n : Nat) : crc16 (zeros n) = 0 := crcFold_zeros n

/-- Law 3: so leading zeros go unnoticed. -/
theorem crc16_zeros_append (n : Nat) (s : List Byte) : crc16 (zeros n ++ s) = crc16 s := by
  rw [crc16_append, crc16_zeros]
  rfl

/-- A register equal to the widened byte is cancelled by it. -/
theorem crcStep_setWidth_self (b : Byte) : crcStep (b.setWidth 16) b = 0 := by
  rw [crcStep, BitVec.xor_self]
  exact crcBits_zero 8

theorem setWidth_hi8 (c : Word16) : (hi8 c).setWidth 16 = c >>> 8 := by
  apply BitVec.eq_of_getLsbD_eq
  intro i hi
  rw [BitVec.getLsbD_setWidth, hi8_getLsbD, BitVec.getLsbD_ushiftRight]
  by_cases hlow : i < 8
  · simp [hi, hlow]
  · simp [hlow, BitVec.getLsbD_of_ge c (8 + i) (by omega)]

/-- A register's own two bytes, the lower first, bring it to zero. -/
theorem crcFold_own_bytes (c : Word16) : crcFold c [lo8 c, hi8 c] = 0 := by
  rw [crcFold_cons, crcFold_cons, crcFold_nil, crcStep_lo8, ← setWidth_hi8, crcStep_setWidth_self]

/-- Law 4: the residue. -/
theorem crc16_append_own_checksum (s : List Byte) : crc16 (s ++ [lo8 (crc16 s), hi8 (crc16 s)]) = 0 := by
  rw [crc16_append, crcFold_own_bytes]

/-- Law 5. -/
theorem crc16_zipWith_xor {s t : List Byte} (h : s.length = t.length) :
    crc16 (s.zipWith (· ^^^ ·) t) = crc16 s ^^^ crc16 t := by
  have hinit : Config.crcInit ^^^ Config.crcInit = Config.crcInit := BitVec.xor_self
  rw [crc16, ← hinit, crcFold_xor _ _ _ _ h]
  rfl

/-- Under one byte no two registers meet. -/
theorem crcStep_left_injective (b : Byte) : Function.Injective (crcStep · b) := by
  intro c d h
  have hzero : crcStep (c ^^^ d) (b ^^^ b) = 0 := by
    rw [crcStep_xor]
    exact BitVec.xor_eq_zero_iff.mpr h
  rw [BitVec.xor_self] at hzero
  exact BitVec.xor_eq_zero_iff.mp (by simpa using crcStep_eq_zero hzero)

/-- From one register no two bytes lead to the same place. -/
theorem crcStep_right_injective (c : Word16) : Function.Injective (crcStep c) := by
  intro x y h
  have hzero : crcStep (c ^^^ c) (x ^^^ y) = 0 := by
    rw [crcStep_xor]
    exact BitVec.xor_eq_zero_iff.mpr h
  have hwide : (x ^^^ y).setWidth 16 = 0 := by
    rw [← crcStep_eq_zero hzero, BitVec.xor_self]
    rfl
  have hbyte : x ^^^ y = 0 := by simpa using congrArg (BitVec.setWidth 8) hwide
  exact BitVec.xor_eq_zero_iff.mp hbyte

/-- Registers that differ stay different under the same bytes. -/
theorem crcFold_left_injective (s : List Byte) : Function.Injective (crcFold · s) := by
  induction s with
  | nil => exact fun _ _ h => h
  | cons b s ih => exact fun _ _ h => crcStep_left_injective b (ih h)

/-- Messages that differ in one byte only differ in their CRC. -/
theorem crc16_set_ne {s : List Byte} {k : Nat} {x : Byte} (hk : k < s.length) (hx : x ≠ s[k]) :
    crc16 (s.set k x) ≠ crc16 s := by
  intro h
  have hsplit : s.take k ++ s[k] :: s.drop (k + 1) = s := by
    rw [← List.drop_eq_getElem_cons hk, List.take_append_drop]
  have hchanged : s.set k x = s.take k ++ x :: s.drop (k + 1) := by
    rw [List.set_eq_take_append_cons_drop, if_pos hk]
  rw [hchanged, ← congrArg crc16 hsplit, crc16_append, crc16_append] at h
  exact hx (crcStep_right_injective _ (crcFold_left_injective _ h))

/-- An inverted bit changes its byte. -/
theorem xor_one_shiftLeft_ne (b : Byte) {j : Nat} (hj : j < 8) : b ^^^ (1#8 <<< j) ≠ b := by
  intro h
  have hbit := congrArg (BitVec.getLsbD · j) h
  simp [hj] at hbit

/-- The consequence of law 5: one inverted bit is seen. -/
theorem crc16_flipBit_ne {s : List Byte} {k j : Nat} (hk : k < s.length) (hj : j < 8) :
    crc16 (flipBit s k j) ≠ crc16 s := by
  rw [flipBit, List.getD_eq_getElem s 0 hk]
  exact crc16_set_ne hk (xor_one_shiftLeft_ne s[k] hj)

/-- Settles O6, law by law. -/
theorem crcLawsHold : Obligations.CrcLawsHold :=
  ⟨rfl, crc16_append, crcStep_zero_zero, crc16_zeros, crc16_zeros_append, crc16_append_own_checksum,
    fun _ _ => crc16_zipWith_xor, fun _ _ _ => crc16_flipBit_ne⟩

/-! ### Only the generator touches `CRCACC` (R78) -/

/-- On a state with another value in `CRCACC` the operation does the same, and its answer carries that value as
`carry` says. -/
def CarriesCrcacc {α : Type} (carry : Word16 → α → α) (f : State → α) : Prop :=
  ∀ v s, f (s.setCrcacc v) = carry v (f s)

/-- An instruction that neither reads nor writes `CRCACC`: a next state keeps whatever value is there. -/
abbrev CrcaccFree (f : State → Answer) : Prop := CarriesCrcacc (fun v => onNext fun t => t.setCrcacc v) f

/-- A change of the state that neither reads nor writes `CRCACC`. -/
abbrev KeepsCrcacc (g : State → State) : Prop := CarriesCrcacc (fun v t => t.setCrcacc v) g

/-- A test that does not look at `CRCACC` chooses between two such operations. -/
theorem carriesCrcacc_ite {α : Type} {carry : Word16 → α → α} {p : State → Prop} [DecidablePred p]
    {f g : State → α} (hp : ∀ v s, p (s.setCrcacc v) ↔ p s) (hf : CarriesCrcacc carry f)
    (hg : CarriesCrcacc carry g) : CarriesCrcacc carry (fun s => if p s then f s else g s) := by
  intro v s
  by_cases h : p s
  · simpa only [if_pos h, if_pos ((hp v s).mpr h)] using hf v s
  · simpa only [if_neg h, if_neg (mt (hp v s).mp h)] using hg v s

theorem keepsCrcacc_comp {g h : State → State} (hg : KeepsCrcacc g) (hh : KeepsCrcacc h) :
    KeepsCrcacc (fun s => g (h s)) := fun v s => (congrArg g (hh v s)).trans (hg v (h s))

theorem crcaccFree_next {g : State → State} (hg : KeepsCrcacc g) : CrcaccFree (fun s => .next (g s)) :=
  fun v s => congrArg Host.Outcome.next (hg v s)

theorem crcaccFree_refused (r : Refusal) : CrcaccFree (fun _ => .refused r) := fun _ _ => rfl

theorem crcaccFree_whenReady {f : State → Answer} (hf : CrcaccFree f) : CrcaccFree (fun s => whenReady s (f s)) :=
  carriesCrcacc_ite (fun _ _ => Iff.rfl) hf (crcaccFree_refused _)

theorem crcaccFree_whenPhase (p : Phase) {f : State → Answer} (hf : CrcaccFree f) :
    CrcaccFree (fun s => whenPhase p s (f s)) :=
  carriesCrcacc_ite (fun _ _ => Iff.rfl) hf (crcaccFree_refused _)

/-- What may refuse carries the value inside what it gives otherwise, and the next state takes it from there. -/
theorem crcaccFree_answerOf {α : Type} {carry : Word16 → α → α} {e : State → Except Refusal α} {k : α → State}
    (he : CarriesCrcacc (fun v => Except.map (carry v)) e) (hk : ∀ v a, k (carry v a) = (k a).setCrcacc v) :
    CrcaccFree (fun s => answerOf (e s) k) := by
  intro v s
  simp only [he v s]
  cases e s with
  | ok a => exact congrArg Host.Outcome.next (hk v a)
  | error r => rfl

theorem pushBytes_carriesCrcacc (b : List Byte) :
    CarriesCrcacc (fun v => Except.map fun t => t.setCrcacc v) (pushBytes · b) :=
  carriesCrcacc_ite (fun _ _ => Iff.rfl) (fun _ _ => rfl) (fun _ _ => rfl)

theorem resyncStep_carriesCrcacc :
    CarriesCrcacc (fun v => Except.map (Prod.map id fun t => t.setCrcacc v)) resyncStep := by
  intro v s
  rw [resyncStep_pure, resyncStep_pure]
  rfl

theorem drain_carriesCrcacc : CarriesCrcacc (fun v => Except.map (Prod.map id fun t => t.setCrcacc v)) drain := by
  intro v s
  rw [drain_pure, drain_pure]
  rfl

theorem pushBytes_bind_drain_carriesCrcacc (b : List Byte) :
    CarriesCrcacc (fun v => Except.map (Prod.map id fun t => t.setCrcacc v))
      (fun s => (pushBytes s b).bind drain) := by
  intro v s
  simp only [pushBytes_carriesCrcacc b v s]
  cases pushBytes s b with
  | ok t => exact drain_carriesCrcacc v t
  | error r => rfl

/-- The checker and the codec work on their operand alone (R78). -/
theorem crcaccFree_codec {i : Instr} (hi : (∃ b, i = .chkVerify b) ∨ (∃ f, i = .enc f) ∨ ∃ b, i = .dec b) :
    CrcaccFree (exec i) := by
  intro v s
  rcases hi with ⟨b, rfl⟩ | ⟨f, rfl⟩ | ⟨b, rfl⟩
  · simp only [exec, execChkVerify]
    split <;> rfl
  · simp only [exec, execEnc]
    split <;> rfl
  · simp only [exec, execDec]
    split <;> rfl

/-- The host's operations on the buffer. -/
theorem crcaccFree_hostRsy {i : Instr} (hi : isHostRsy i = true) : CrcaccFree (exec i) := by
  cases i with
  | rsyFlush => exact crcaccFree_whenReady (crcaccFree_next fun _ _ => rfl)
  | rsyPush b => exact crcaccFree_whenReady (crcaccFree_answerOf (pushBytes_carriesCrcacc b) fun _ _ => rfl)
  | rsyStep => exact crcaccFree_whenReady (crcaccFree_answerOf resyncStep_carriesCrcacc fun _ _ => rfl)
  | rsyDrain => exact crcaccFree_whenReady (crcaccFree_answerOf drain_carriesCrcacc fun _ _ => rfl)
  | rsyFeed b =>
    exact crcaccFree_whenReady (crcaccFree_answerOf (pushBytes_bind_drain_carriesCrcacc b) fun _ _ => rfl)
  | _ => cases hi

/-- The worker's five steps. -/
theorem crcaccFree_worker {i : Instr} (hi : isWorkerStep i = true) : CrcaccFree (exec i) := by
  cases i with
  | wGuard =>
    have hverdict : KeepsCrcacc fun s =>
        if s.lifecycle ≠ .running then (s.setPhase .idle).ret .none
        else if s.tIsValid = false then ((s.setLifecycle .invalid).setPhase .idle).ret .none
        else (s.setPhase .openchk).ret .none :=
      carriesCrcacc_ite (fun _ _ => Iff.rfl) (fun _ _ => rfl)
        (carriesCrcacc_ite (fun _ _ => Iff.rfl) (fun _ _ => rfl) fun _ _ => rfl)
    exact crcaccFree_whenPhase .guard (crcaccFree_next hverdict)
  | wOpenchk ok dies =>
    have hopened : KeepsCrcacc fun s =>
        if s.tIsOpen = false then ((s.bufClear.tOpen ok).tDies dies).setPhase .read else s.setPhase .read :=
      carriesCrcacc_ite (fun _ _ => Iff.rfl) (fun _ _ => rfl) fun _ _ => rfl
    exact crcaccFree_whenPhase .openchk
      (crcaccFree_next (keepsCrcacc_comp (g := fun t => t.ret .none) (fun _ _ => rfl) hopened))
  | wRead n err dies => exact crcaccFree_whenPhase .read (crcaccFree_next fun _ _ => rfl)
  | wExtract =>
    refine crcaccFree_whenPhase .extract (crcaccFree_answerOf resyncStep_carriesCrcacc fun v a => ?_)
    simp only [Prod.map_fst, Prod.map_snd, id]
    split_ifs <;> rfl
  | wErrchk dies =>
    have hclosed : KeepsCrcacc fun s => if transportReadError s then s.tClose.tDies dies else s :=
      carriesCrcacc_ite (fun _ _ => Iff.rfl) (fun _ _ => rfl) fun _ _ => rfl
    exact crcaccFree_whenPhase .errchk
      (crcaccFree_next (keepsCrcacc_comp (g := fun t => (t.setPhase .guard).ret .none) (fun _ _ => rfl) hclosed))
  | _ => cases hi

/-- The lifecycle commands and the completion of `SHUTDOWN`. -/
theorem crcaccFree_lifecycle {i : Instr}
    (hi : i = .start ∨ i = .shutdown ∨ i = .shutdownDone ∨ ∃ k, i = .probe k) : CrcaccFree (exec i) := by
  rcases hi with rfl | rfl | rfl | ⟨k, rfl⟩
  · exact carriesCrcacc_ite (fun _ _ => Iff.rfl) (crcaccFree_next fun _ _ => rfl) (crcaccFree_next fun _ _ => rfl)
  · exact carriesCrcacc_ite (fun _ _ => Iff.rfl) (crcaccFree_next fun _ _ => rfl) (crcaccFree_next fun _ _ => rfl)
  · exact carriesCrcacc_ite (fun _ _ => Iff.rfl) (crcaccFree_next fun _ _ => rfl) (crcaccFree_refused _)
  · exact carriesCrcacc_ite (fun _ _ => Iff.rfl) (crcaccFree_refused _)
      (carriesCrcacc_ite (fun _ _ => Iff.rfl) (crcaccFree_refused _) (crcaccFree_next fun _ _ => rfl))

/-- Settles O7, unit by unit; a reserved code, `STATUS` and an arriving frame do not touch the registers. -/
theorem accumulatorIsPrivateToGenerator : Obligations.AccumulatorIsPrivateToGenerator := by
  intro i v s hi
  cases i with
  | crcClr | crcUpd | crcGet | crc16 => cases hi
  | chkVerify | enc | dec => exact crcaccFree_codec (by simp) v s
  | rsyFlush | rsyPush | rsyStep | rsyDrain | rsyFeed => exact crcaccFree_hostRsy rfl v s
  | start | shutdown | shutdownDone | probe => exact crcaccFree_lifecycle (by simp) v s
  | wGuard | wOpenchk | wRead | wExtract | wErrchk => exact crcaccFree_worker rfl v s
  | _ => rfl

/-! ### The generator's three commands (R74 to R76) -/

theorem exec_crcClr_eq (s : State) : exec .crcClr s = .next { s with crcacc := 0x0000, result := .none } := rfl

theorem exec_crcUpd_eq (b : Byte) (s : State) :
    exec (.crcUpd b) s = .next { s with crcacc := crcStep s.crcacc b, result := .none } := rfl

theorem exec_crcGet_eq (s : State) :
    exec .crcGet s = .next { s with result := .word (s.crcacc ^^^ Config.crcXorOut) } := rfl

/-- Settles O1. -/
theorem crcClrClearsAccumulator : Obligations.CrcClrClearsAccumulator :=
  ⟨rfl, exec_crcClr_eq⟩

/-- Settles O2; the corner case is the zero step, the two examples are evaluated. -/
theorem crcUpdAppliesOneByteStep : Obligations.CrcUpdAppliesOneByteStep :=
  ⟨fun _ => rfl, exec_crcUpd_eq, crcStep_zero_zero, by decide, by decide⟩

/-- The CRC of the example of R76, the digits 1 to 9. -/
theorem crc16_digits : crc16 [0x31, 0x32, 0x33, 0x34, 0x35, 0x36, 0x37, 0x38, 0x39] = 0xBB3D := by decide +kernel

/-- Settles O3; the example is the expansion of `CRC16` over the nine digits (R65). -/
theorem crcGetReturnsAccumulator : Obligations.CrcGetReturnsAccumulator := by
  refine ⟨rfl, exec_crcGet_eq, fun s => xor_crcXorOut s.crcacc, fun s => ?_⟩
  obtain ⟨hexpansion, hresult⟩ := pseudoCrc16IsItsExpansion [0x31, 0x32, 0x33, 0x34, 0x35, 0x36, 0x37, 0x38, 0x39] s
  rw [← hexpansion, hresult, crc16_digits]

end Sys2Proof.Proofs
end

section
/-! PROOFS. The checksum checker (41_checker.md): what `CHK.VERIFY` answers (R80), and its residue form (R81). -/

namespace Sys2Proof.Proofs

open Sys2Proof Sys2Proof.Machine

/-! ### The compare form is the residue form (R81) -/

/-- The one register that two bytes bring to zero is the register they spell (R77 law 4 and its converse). -/
theorem crcFold_two_eq_zero_iff (c : Word16) (lo hi : Byte) : crcFold c [lo, hi] = 0 ↔ c = le16 lo hi := by
  have hown : crcFold (le16 lo hi) [lo, hi] = 0 := by simpa using crcFold_own_bytes (le16 lo hi)
  rw [← hown]
  exact (crcFold_left_injective [lo, hi]).eq_iff

/-- The compare form where the two checksum bytes are written apart (R80). -/
theorem checksumMatches_append_two (body : List Byte) (lo hi : Byte) :
    checksumMatches (body ++ [lo, hi]) = (crc16 body == le16 lo hi) := by
  rw [checksumMatches, checkedBody_append_two, wireCk_append_two]

/-- Two bytes or more are a body and the two bytes behind it. -/
theorem exists_eq_append_two {b : List Byte} (h : 2 ≤ b.length) :
    ∃ (body : List Byte) (lo hi : Byte), b = body ++ [lo, hi] := by
  have htail : (b.drop (b.length - 2)).length = 2 := by rw [List.length_drop]; omega
  obtain ⟨lo, hi, htwo⟩ := List.length_eq_two.mp htail
  exact ⟨b.take (b.length - 2), lo, hi, by rw [← htwo, List.take_append_drop]⟩

/-- On two bytes or more the comparison succeeds exactly when the CRC of all of them is zero (R81). -/
theorem checksumMatches_eq_residue {b : List Byte} (h : 2 ≤ b.length) : checksumMatches b = (crc16 b == 0) := by
  obtain ⟨body, lo, hi, rfl⟩ := exists_eq_append_two h
  rw [checksumMatches_append_two, crc16_append, Bool.eq_iff_iff, beq_iff_eq, beq_iff_eq, crcFold_two_eq_zero_iff]

/-! ### The command (R80) -/

/-- On two bytes or more `CHK.VERIFY` answers the comparison and writes only the result port. -/
theorem exec_chkVerify_eq {b : List Byte} (h : 2 ≤ b.length) (s : State) :
    exec (.chkVerify b) s = .next { s with result := .verdict (checksumMatches b) } :=
  if_pos (decide_eq_true h)

/-- On fewer there are no two checksum bytes to split off (U3). -/
theorem exec_chkVerify_of_short {b : List Byte} (h : b.length < 2) (s : State) :
    exec (.chkVerify b) s = .refused .chkTooShort :=
  if_neg fun hfits => Nat.not_le.mpr h (of_decide_eq_true hfits)

/-- Settles O10: the comparison is the residue test. -/
theorem chkVerifyIsZeroResidue : Obligations.ChkVerifyIsZeroResidue := by
  intro b s h
  rw [exec_chkVerify_eq h, checksumMatches_eq_residue h]

/-- Settles O9; the all-zero operand matches because its residue is zero (R77 law 3). -/
theorem chkVerifyComparesTrailingChecksum : Obligations.ChkVerifyComparesTrailingChecksum := by
  refine ⟨fun _ => rfl, fun body lo hi s => ?_, fun _ s h => exec_chkVerify_of_short h s, fun n s => ?_⟩
  · have hlen : 2 ≤ (body ++ [lo, hi]).length := by simp
    rw [exec_chkVerify_eq hlen, checksumMatches_append_two]
  · have hlen : 2 ≤ (zeros (n + 2)).length := by simp
    rw [chkVerifyIsZeroResidue _ s hlen, crc16_zeros]
    rfl

end Sys2Proof.Proofs
end

section
/-! PROOFS. The frame codec (42_codec.md): what `ENC` writes (R86), the tests of `DEC` in their order (R87, R88),
and the laws of the pair (R90 to R93). -/

namespace Sys2Proof.Proofs

open Sys2Proof Sys2Proof.Machine

/-! ### `ENC` (R86) -/

theorem encFrame_eq_encoded {f : Frame} (h : f.payload.length ≤ 255) : encFrame f = some (encoded f) :=
  if_neg (Nat.not_lt.mpr h)

theorem encFrame_eq_none {f : Frame} (h : 255 < f.payload.length) : encFrame f = none :=
  if_pos h

/-- `ENC` of a payload that the length byte can count writes only the result port. -/
theorem exec_enc_eq {f : Frame} (h : f.payload.length ≤ 255) (s : State) :
    exec (.enc f) s = .next { s with result := .bytes (encoded f) } := by
  simp only [exec, execEnc, encFrame_eq_encoded h, State.ret]

/-- A longer payload has no length byte (R89a). -/
theorem exec_enc_of_tooLong {f : Frame} (h : 255 < f.payload.length) (s : State) :
    exec (.enc f) s = .refused .encodeTooLong := by
  simp only [exec, execEnc, encFrame_eq_none h]

/-- What the checksum of an encoded frame covers: only four fields of the operand are read (R86). -/
theorem frameBody_normalised (f : Frame) :
    frameBody (normalised f) =
      headerBytes f.dst f.src (BitVec.ofNat 8 f.payload.length) 0 0 f.op ++ f.payload := rfl

theorem normalised_ck (f : Frame) : (normalised f).ck = crc16 (frameBody (normalised f)) := wireFrame_ck _ _

theorem normalised_len {f : Frame} (h : f.payload.length ≤ 255) :
    (normalised f).len.toNat = (normalised f).payload.length := wireFrame_len h

@[simp] theorem encoded_length (f : Frame) : (encoded f).length = f.payload.length + 10 :=
  frameBytes_length (normalised f)

/-- The encoded bytes are a body and the body's own checksum behind it. -/
theorem encoded_eq_body_append_checksum (f : Frame) :
    encoded f = frameBody (normalised f) ++
      [lo8 (crc16 (frameBody (normalised f))), hi8 (crc16 (frameBody (normalised f)))] := by
  rw [encoded, frameBytes, ckBytes, normalised_ck]

/-- Settles O11: the encoded bytes, read off their layout. -/
theorem encWritesRecomputedFrame : Obligations.EncWritesRecomputedFrame := by
  refine ⟨fun _ => rfl, ?_, fun _ s h => exec_enc_of_tooLong h s⟩
  rintro f s body h rfl
  rw [exec_enc_eq h, encoded_eq_body_append_checksum]
  rfl

/-! ### The verdicts of `DEC` (R87, R88) -/

theorem all_zero_iff (b : List Byte) : b.all (fun x => x == 0) = true ↔ ∀ x ∈ b, x = 0 := by
  simp

theorem all_zero_eq_false_iff (b : List Byte) : b.all (fun x => x == 0) = false ↔ ∃ x ∈ b, x ≠ 0 := by
  simp

theorem decFrame_of_short {b : List Byte} (h : b.length < 10) : decFrame b = .tooShort :=
  if_pos h

theorem decFrame_of_all_zero {b : List Byte} (hlen : 10 ≤ b.length) (hz : ∀ x ∈ b, x = 0) :
    decFrame b = .emptyFrame := by
  rw [decFrame, if_neg (Nat.not_lt.mpr hlen), if_pos ((all_zero_iff b).mpr hz)]

/-- The checksum test in its residue form (R81). It needs no premise on zeros: an all-zero operand has residue
zero (R77 law 3), so the test before it cannot have answered (R88). -/
theorem decFrame_of_residue_ne {b : List Byte} (hlen : 10 ≤ b.length) (hres : crc16 b ≠ 0) :
    decFrame b = .checksumMismatch := by
  have hnonzero : ¬ b.all (fun x => x == 0) = true := by
    intro hz
    rw [List.eq_replicate_of_mem ((all_zero_iff b).mp hz)] at hres
    exact hres (crc16_zeros b.length)
  have hck : checksumMatches b = false := by
    rw [checksumMatches_eq_residue (by omega)]
    exact beq_false_of_ne hres
  rw [decFrame, if_neg (Nat.not_lt.mpr hlen), if_neg hnonzero, if_pos hck]

/-- Past the checksum test, a length byte that does not count the payload is the last thing refused (R89c). -/
theorem decFrame_frameBytes_of_len_ne {f : Frame} (hlen : f.len.toNat ≠ f.payload.length)
    (hck : f.ck = crc16 (frameBody f)) (hz : (frameBytes f).all (fun x => x == 0) = false) :
    decFrame (frameBytes f) = .lengthInconsistent := by
  have hlong : ¬ (frameBytes f).length < Config.minFrame := by simp
  have hmatch : ¬ checksumMatches (frameBytes f) = false := by simp [checksumMatches, ← hck]
  have hframe : frameLength (frameBytes f) ≠ (frameBytes f).length := by simpa [frameLength] using hlen
  rw [decFrame, if_neg hlong, if_neg (Bool.eq_false_iff.mp hz), if_neg hmatch, if_pos hframe]

theorem exec_dec_of_tooShort {b : List Byte} (h : decFrame b = .tooShort) (s : State) :
    exec (.dec b) s = .refused .decodeTooShort := by
  simp only [exec, execDec, h]

theorem exec_dec_of_emptyFrame {b : List Byte} (h : decFrame b = .emptyFrame) (s : State) :
    exec (.dec b) s = .next { s with result := .error .emptyFrame } := by
  simp only [exec, execDec, h, State.raise, State.ret]

theorem exec_dec_of_checksumMismatch {b : List Byte} (h : decFrame b = .checksumMismatch) (s : State) :
    exec (.dec b) s = .next { s with result := .error .checksumMismatch } := by
  simp only [exec, execDec, h, State.raise, State.ret]

theorem exec_dec_of_lengthInconsistent {b : List Byte} (h : decFrame b = .lengthInconsistent) (s : State) :
    exec (.dec b) s = .refused .decodeLengthInconsistent := by
  simp only [exec, execDec, h]

theorem exec_dec_of_frame {b : List Byte} {f : Frame} (h : decFrame b = .frame f) (s : State) :
    exec (.dec b) s = .next { s with result := .frame f } := by
  simp only [exec, execDec, h, State.ret]

/-- A frame given byte by byte is the layout of the record that `DEC` parses from it (R51, R87 step 4). -/
theorem frameBytes_of_bytes (d0 d1 s0 s1 n r0 r1 o lo hi : Byte) (p : List Byte) :
    frameBytes ⟨le16 d0 d1, le16 s0 s1, n, r0, r1, o, p, le16 lo hi⟩ =
      [d0, d1, s0, s1, n, r0, r1, o] ++ p ++ [lo, hi] := by
  simp [frameBytes, frameBody, headerBytes, ckBytes]

/-- The part of it that the checksum covers. -/
theorem frameBody_of_bytes (d0 d1 s0 s1 n r0 r1 o : Byte) (p : List Byte) (ck : Word16) :
    frameBody ⟨le16 d0 d1, le16 s0 s1, n, r0, r1, o, p, ck⟩ = [d0, d1, s0, s1, n, r0, r1, o] ++ p := by
  simp [frameBody, headerBytes]

/-- Settles O12, verdict by verdict in the order of the tests. -/
theorem decTestsInOrderThenParses : Obligations.DecTestsInOrderThenParses := by
  refine ⟨fun _ => rfl, fun _ s h => exec_dec_of_tooShort (decFrame_of_short h) s,
    fun _ s hlen hz => exec_dec_of_emptyFrame (decFrame_of_all_zero hlen hz) s, ?_, ?_⟩
  · intro body lo hi s hlen _ hne
    have hres : crc16 (body ++ [lo, hi]) ≠ 0 := by
      rw [crc16_append]
      exact (crcFold_two_eq_zero_iff _ lo hi).not.mpr hne
    exact exec_dec_of_checksumMismatch (decFrame_of_residue_ne (by simpa using hlen) hres) s
  · intro d0 d1 s0 s1 n r0 r1 o lo hi p s hnonzero hcrc
    rw [← frameBytes_of_bytes] at hnonzero ⊢
    rw [← frameBody_of_bytes d0 d1 s0 s1 n r0 r1 o p (le16 lo hi)] at hcrc
    have hz := (all_zero_eq_false_iff _).mpr hnonzero
    split
    case isTrue hn => exact exec_dec_of_frame (decFrame_frameBytes hn hcrc.symm hz) s
    case isFalse hn => exact exec_dec_of_lengthInconsistent (decFrame_frameBytes_of_len_ne hn hcrc.symm hz) s

/-! ### The zero frame (R92, R93) -/

theorem decFrame_zeros {n : Nat} (h : 10 ≤ n) : decFrame (zeros n) = .emptyFrame :=
  decFrame_of_all_zero (by simpa using h) fun _ => List.eq_of_mem_replicate

theorem eq_zero_of_halves_eq_zero {v : Word16} (hlo : lo8 v = 0) (hhi : hi8 v = 0) : v = 0 := by
  rw [← le16_lo8_hi8 v, hlo, hhi]
  rfl

theorem isZeroFrame_iff (f : Frame) :
    isZeroFrame f = true ↔ f.dst = 0 ∧ f.src = 0 ∧ f.op = 0 ∧ f.payload = [] := by
  simp [isZeroFrame, and_assoc]

/-- The eight zero bytes of its body have CRC zero, and so have all ten bytes. -/
theorem encoded_of_isZeroFrame {f : Frame} (h : isZeroFrame f = true) : encoded f = zeros 10 := by
  obtain ⟨hdst, hsrc, hop, hpayload⟩ := (isZeroFrame_iff f).mp h
  have hbody : frameBody (normalised f) = zeros 8 := by
    rw [frameBody_normalised, hdst, hsrc, hop, hpayload]
    rfl
  rw [encoded_eq_body_append_checksum, hbody, crc16_zeros]
  rfl

/-- Zero address bytes, a zero operation byte and a zero length byte leave no other frame. -/
theorem isZeroFrame_of_encoded_all_zero {f : Frame} (hlen : f.payload.length ≤ 255)
    (hz : ∀ x ∈ encoded f, x = 0) : isZeroFrame f = true := by
  have hheader : ∀ x ∈ headerBytes f.dst f.src (BitVec.ofNat 8 f.payload.length) 0 0 f.op, x = 0 := by
    intro x hx
    apply hz
    rw [encoded_eq_body_append_checksum, frameBody_normalised]
    exact List.mem_append_left _ (List.mem_append_left _ hx)
  simp only [headerBytes, List.forall_mem_cons] at hheader
  obtain ⟨hdstLo, hdstHi, hsrcLo, hsrcHi, hcount, -, -, hop, -⟩ := hheader
  have hpayload : f.payload.length = 0 := by
    have hmod : f.payload.length % 256 = 0 := by simpa using congrArg BitVec.toNat hcount
    omega
  exact (isZeroFrame_iff f).mpr ⟨eq_zero_of_halves_eq_zero hdstLo hdstHi,
    eq_zero_of_halves_eq_zero hsrcLo hsrcHi, hop, List.length_eq_zero_iff.mp hpayload⟩

/-! ### Decoding what `ENC` wrote (R90, R93) -/

/-- Every frame but the zero frame is received, as its normalised self. -/
theorem decFrame_encoded {f : Frame} (hlen : f.payload.length ≤ 255) (hf : isZeroFrame f = false) :
    decFrame (encoded f) = .frame (normalised f) := by
  have hnonzero : (encoded f).all (fun x => x == 0) = false := by
    rw [Bool.eq_false_iff] at hf ⊢
    exact fun hz => hf (isZeroFrame_of_encoded_all_zero hlen ((all_zero_iff _).mp hz))
  exact decFrame_frameBytes (normalised_len hlen) (normalised_ck f) hnonzero

/-- Settles O16: the zero frame's bytes are all zero, every other frame's bytes decode. -/
theorem zeroFrameIsTheOnlyUnreceivable : Obligations.ZeroFrameIsTheOnlyUnreceivable := by
  refine ⟨fun _ s h => exec_dec_of_emptyFrame (decFrame_zeros h) s, fun f hf => ?_,
    fun f hlen => ⟨fun hdec => ?_, decFrame_encoded hlen⟩⟩
  · obtain ⟨-, -, -, hpayload⟩ := (isZeroFrame_iff f).mp hf
    rw [encFrame_eq_encoded (by simp [hpayload]), encoded_of_isZeroFrame hf]
  · rw [Bool.eq_false_iff]
    intro hf
    rw [encoded_of_isZeroFrame hf, decFrame_zeros le_rfl] at hdec
    cases hdec

/-- Settles O13: the frame decoded is the normalised operand. -/
theorem encThenDecRoundTrips : Obligations.EncThenDecRoundTrips := by
  intro f s hlen hf
  have hbody : (encoded f).take (8 + f.payload.length) = frameBody (normalised f) := by
    rw [encoded_eq_body_append_checksum]
    exact List.take_left' (frameBody_length (normalised f))
  refine ⟨encoded f, normalised f, exec_enc_eq hlen s, exec_dec_of_frame (decFrame_encoded hlen hf) s,
    rfl, rfl, rfl, rfl, normalised_len hlen, rfl, rfl, ?_⟩
  rw [hbody, normalised_ck]

/-! ### Encoding what `DEC` parsed (R90, R163) -/

/-- From one register no two pairs of bytes lead to the same place: sixteen neighbouring bits are as many as the
register holds. -/
theorem crcFold_two_injective {c : Word16} {x y x' y' : Byte} (h : crcFold c [x, y] = crcFold c [x', y']) :
    x = x' ∧ y = y' := by
  have hzero : crcFold (c ^^^ c) [x ^^^ x', y ^^^ y'] = 0 := by
    have hxor : crcFold (c ^^^ c) [x ^^^ x', y ^^^ y'] = crcFold c [x, y] ^^^ crcFold c [x', y'] :=
      crcFold_xor c c [x, y] [x', y'] rfl
    rw [hxor, h]
    exact BitVec.xor_self
  have hword : c ^^^ c = le16 (x ^^^ x') (y ^^^ y') := (crcFold_two_eq_zero_iff _ _ _).mp hzero
  rw [BitVec.xor_self] at hword
  have hx : x ^^^ x' = 0 := by rw [← lo8_le16 (x ^^^ x') (y ^^^ y'), ← hword]; rfl
  have hy : y ^^^ y' = 0 := by rw [← hi8_le16 (x ^^^ x') (y ^^^ y'), ← hword]; rfl
  exact ⟨BitVec.xor_eq_zero_iff.mp hx, BitVec.xor_eq_zero_iff.mp hy⟩

/-- So two messages that differ in two neighbouring bytes only have different CRCs. -/
theorem crc16_two_injective {pre post : List Byte} {x y x' y' : Byte}
    (h : crc16 (pre ++ ([x, y] ++ post)) = crc16 (pre ++ ([x', y'] ++ post))) : x = x' ∧ y = y' := by
  rw [crc16_append, crc16_append, crcFold_append, crcFold_append] at h
  exact crcFold_two_injective (crcFold_left_injective post h)

/-- The body of a Frame around its two reserved bytes. -/
theorem frameBody_eq_around_reserved (f : Frame) :
    frameBody f = [lo8 f.dst, hi8 f.dst, lo8 f.src, hi8 f.src, f.len] ++
      ([f.rsv0, f.rsv1] ++ f.op :: f.payload) := rfl

/-- A Frame with a right length byte and checksum is normalised already where its reserved bytes are zero. -/
theorem normalised_eq_self {g : Frame} (hlen : g.len.toNat = g.payload.length) (hck : g.ck = crc16 (frameBody g))
    (h0 : g.rsv0 = 0) (h1 : g.rsv1 = 0) : normalised g = g := by
  have hfields : { wireFields g with rsv0 := 0, rsv1 := 0 } = wireFields g := by rw [wireFields, h0, h1]
  rw [normalised, hfields, wireFrame_wireFields hlen hck]

/-- Only the reserved bytes can make the recomputed checksum differ from the one received, and they do. -/
theorem reserved_eq_zero_of_normalised_ck_eq {g : Frame} (hlen : g.len.toNat = g.payload.length)
    (hck : g.ck = crc16 (frameBody g)) (h : (normalised g).ck = g.ck) : g.rsv0 = 0 ∧ g.rsv1 = 0 := by
  have hsame : (normalised g).len = g.len := by
    apply BitVec.eq_of_toNat_eq
    rw [hlen]
    exact normalised_len (by have := g.len.isLt; omega)
  rw [normalised_ck, hck, frameBody_eq_around_reserved, frameBody_eq_around_reserved, hsame] at h
  obtain ⟨h0, h1⟩ := crc16_two_injective h
  exact ⟨h0.symm, h1.symm⟩

/-- Settles O14: `ENC` writes zeros at offsets 5 and 6, and what stood there shows in the checksum. -/
theorem decThenEncKeepsOnlyZeroReserved : Obligations.DecThenEncKeepsOnlyZeroReserved := by
  intro b g hdec
  obtain ⟨rfl, hlen, hck, -⟩ := decFrame_frame hdec
  have hfits : g.payload.length ≤ 255 := by have := g.len.isLt; omega
  have hrsv0 : (frameBytes g).getD 5 0 = g.rsv0 := rfl
  have hrsv1 : (frameBytes g).getD 6 0 = g.rsv1 := rfl
  rw [hrsv0, hrsv1, encFrame_eq_encoded hfits, Option.some_inj]
  refine ⟨⟨fun heq => ?_, fun ⟨h0, h1⟩ => ?_⟩, mt (reserved_eq_zero_of_normalised_ck_eq hlen hck)⟩
  · rw [← hrsv0, ← hrsv1, ← heq]
    exact ⟨rfl, rfl⟩
  · rw [encoded, normalised_eq_self hlen hck h0 h1]

/-! ### Single-bit errors (R91) -/

/-- The residue of an encoded frame is zero (R81). -/
theorem crc16_encoded (f : Frame) : crc16 (encoded f) = 0 := by
  rw [encoded_eq_body_append_checksum, crc16_append_own_checksum]

/-- Settles O15: an inverted bit, wherever it is, takes the residue away from zero. -/
theorem singleBitErrorsAreDetected : Obligations.SingleBitErrorsAreDetected := by
  intro f k j s _ hk hj
  have hin : k < (encoded f).length := by rwa [encoded_length]
  have hlong : 10 ≤ (flipBit (encoded f) k j).length := by simp [flipBit]
  have hres : crc16 (flipBit (encoded f) k j) ≠ 0 := by
    rw [← crc16_encoded f]
    exact crc16_flipBit_ne hin hj
  exact exec_dec_of_checksumMismatch (decFrame_of_residue_ne hlong hres) s

end Sys2Proof.Proofs
end

section
/-! PROOFS. The resynchronizer (43_resync.md): the host's operations (R95 to R98), the drain as repeated iterations
(R99, R103), its indifference to how the bytes are cut (R102), and its convergence over garbage (R104). -/

namespace Sys2Proof.Proofs

open Sys2Proof Sys2Proof.Machine

/-! ### The host's operations (R95 to R97) -/

/-- Settles O18: the clear is the whole of the command. -/
theorem rsyFlushEmptiesBuffer : Obligations.RsyFlushEmptiesBuffer :=
  ⟨rfl, fun _ hl => if_pos hl⟩

/-- Settles O19: the two sides of the capacity test. -/
theorem rsyPushAppendsWithinCapacity : Obligations.RsyPushAppendsWithinCapacity :=
  ⟨fun _ => rfl, fun _ _ hl hcap => exec_rsyPush_eq hl hcap, fun _ _ hl hover => exec_rsyPush_of_overflow hl hover⟩

/-- Settles O21: every operation of the host stands behind the same test of `STATE`. -/
theorem hostRsyRefusedOutsideReady : Obligations.HostRsyRefusedOutsideReady :=
  fun _ _ hi hl => exec_hostRsy_of_not_ready hi hl

/-! ### One iteration (R98) -/

theorem pureStep_of_short {b : List Byte} (h : b.length < 10) : pureStep b = (.stopShort, b) :=
  if_pos h

theorem pureStep_of_wait {b : List Byte} (h10 : 10 ≤ b.length) (h : b.length < frameLength b) :
    pureStep b = (.stopWait (frameLength b), b) := by
  rw [pureStep, if_neg (Nat.not_lt.mpr h10), if_pos h]

/-- An iteration that goes on has a complete window at the front. -/
theorem frameLength_le_of_pureStep_go {b : List Byte} (h : isStop (pureStep b).1 = false) :
    frameLength b ≤ b.length := by
  by_contra hwait
  by_cases hshort : b.length < 10
  · simp [pureStep_of_short hshort, isStop] at h
  · simp [pureStep_of_wait (Nat.le_of_not_lt hshort) (Nat.lt_of_not_le hwait), isStop] at h

/-- The three verdicts on a complete window. The window has the length that its own length byte declares, so `DEC`
refuses neither for its length nor for an inconsistent one (R89, R98). -/
theorem pureStep_of_full {b : List Byte} (h : frameLength b ≤ b.length) :
    (∃ f, decFrame (b.take (frameLength b)) = .frame f ∧ pureStep b = (.frame f, b.drop (frameLength b))) ∨
    (decFrame (b.take (frameLength b)) = .emptyFrame ∧ pureStep b = (.slip .emptyFrame, b.drop 1)) ∨
    (decFrame (b.take (frameLength b)) = .checksumMismatch ∧
      pureStep b = (.slip .checksumMismatch, b.drop 1)) := by
  obtain ⟨h10, -⟩ := frameLength_bounds b
  have hshort : ¬ b.length < 10 := by omega
  have hwait : ¬ b.length < frameLength b := by omega
  have hwindow : (b.take (frameLength b)).length = frameLength b := by simpa using h
  rcases decFrame_cases (b.take (frameLength b)) with
    ⟨hsmall, -⟩ | ⟨-, -, hdec⟩ | ⟨-, -, -, hdec⟩ | ⟨-, -, -, hlen, -⟩ | ⟨-, -, -, -, hdec⟩
  · omega
  · exact .inr (.inl ⟨hdec, by rw [pureStep, if_neg hshort, if_neg hwait, hdec]⟩)
  · exact .inr (.inr ⟨hdec, by rw [pureStep, if_neg hshort, if_neg hwait, hdec]⟩)
  · exact absurd (by rw [frameLength_take h10, hwindow]) hlen
  · exact .inl ⟨_, hdec, by rw [pureStep, if_neg hshort, if_neg hwait, hdec]⟩

/-- A stop leaves the bytes as they are (R100 item 2). -/
theorem pureStep_rest_of_stop {b : List Byte} (h : isStop (pureStep b).1 = true) : (pureStep b).2 = b := by
  rcases pureStep_stop_or_shorter b with ⟨-, hsame⟩ | ⟨hgo, -⟩
  · exact hsame
  · simp [hgo] at h

/-- The state after some iterations: the buffer they leave, the dispatches of the frames among their outcomes, and
what the last transaction handed out. -/
def advanced (s : State) (os : List StepOutcome) (rest : List Byte) (r : Result) : State :=
  { s with abuf := rest, out := s.out ++ emitted s.probes (framesOf os), result := r }

@[simp] theorem advanced_abuf (s : State) (os : List StepOutcome) (rest : List Byte) (r : Result) :
    (advanced s os rest r).abuf = rest := rfl

@[simp] theorem abufCap_advanced (s : State) (os : List StepOutcome) (rest : List Byte) (r : Result) :
    abufCap (advanced s os rest r) = abufCap s := rfl

/-- An advance without a frame writes the buffer and the result port only. -/
theorem advanced_of_no_frame (s : State) {os : List StepOutcome} (h : framesOf os = []) (rest : List Byte)
    (r : Result) : advanced s os rest r = { s with abuf := rest, result := r } := by
  simp [advanced, h]

/-- An advance by one frame emits one `Dispatch` a sink, in registration order (R98). -/
theorem advanced_frame (s : State) (f : Frame) (rest : List Byte) (r : Result) :
    advanced s [.frame f] rest r = { s with
      abuf := rest, out := s.out ++ (List.range s.probes.length).map (fun i => ⟨i, f⟩), result := r } := by
  simp [advanced, framesOf, dispatches]

theorem framesOf_append (os os' : List StepOutcome) : framesOf (os ++ os') = framesOf os ++ framesOf os' :=
  List.filterMap_append

theorem emitted_append (p : List Sink) (fs fs' : List Frame) : emitted p (fs ++ fs') = emitted p fs ++ emitted p fs' :=
  List.flatMap_append

/-- Two advances, one after the other, are one. -/
theorem advanced_advanced (s : State) (os os' : List StepOutcome) (rest rest' : List Byte) (r r' : Result) :
    advanced (advanced s os rest r) os' rest' r' = advanced s (os ++ os') rest' r' := by
  simp [advanced, framesOf_append, emitted_append]

/-- A result tells of the same frame whether its stops are left out or not. -/
theorem framesOf_progress_step (o : StepOutcome) : framesOf (progress (.step o)) = framesOf [o] := by
  cases o <;> rfl

theorem confirmed_step (o : StepOutcome) : confirmed (.step o) = framesOf (progress (.step o)) := by
  cases o <;> rfl

theorem progress_of_stop {o : StepOutcome} (h : isStop o = true) : progress (.step o) = [] := by
  simp [progress, h]

theorem progress_of_go {o : StepOutcome} (h : isStop o = false) : progress (.step o) = [o] := by
  simp [progress, h]

/-- A host-issued `RSY.STEP` in `READY` advances by one iteration. -/
theorem exec_rsyStep_advances {s : State} (hl : s.lifecycle = .ready) :
    exec .rsyStep s = .next (advanced s (progress (.step (pureStep s.abuf).1)) (pureStep s.abuf).2
      (.step (pureStep s.abuf).1)) := by
  rw [exec_rsyStep_eq hl, advanced, framesOf_progress_step]

/-- The same for an iteration whose outcome is known. -/
theorem exec_rsyStep_of_pureStep {s : State} {o : StepOutcome} {rest : List Byte} (hl : s.lifecycle = .ready)
    (h : pureStep s.abuf = (o, rest)) : exec .rsyStep s = .next (advanced s [o] rest (.step o)) := by
  rw [exec_rsyStep_eq hl, h, advanced]

/-- A `RSY.STEP` that stops changes the result port only (R98). -/
theorem exec_rsyStep_of_stop {s : State} (hl : s.lifecycle = .ready) (hstop : isStop (pureStep s.abuf).1 = true) :
    exec .rsyStep s = .next { s with result := .step (pureStep s.abuf).1 } := by
  rw [exec_rsyStep_advances hl, progress_of_stop hstop, advanced_of_no_frame s rfl, pureStep_rest_of_stop hstop]

/-- Settles O20: the branches of one iteration, each carried to the command. -/
theorem rsyStepExtractsOrSlipsOneByte : Obligations.RsyStepExtractsOrSlipsOneByte := by
  refine ⟨rfl, fun s fl hl hfl => ?_⟩
  obtain rfl : fl = frameLength s.abuf := hfl
  refine ⟨fun hshort => ?_, fun h10 hwait => ?_, fun hfull => ?_⟩
  · rw [exec_rsyStep_of_pureStep hl (pureStep_of_short hshort), advanced_of_no_frame s rfl]
  · rw [exec_rsyStep_of_pureStep hl (pureStep_of_wait h10 hwait), advanced_of_no_frame s rfl]
  · rcases pureStep_of_full hfull with ⟨f, hdec, hstep⟩ | ⟨hdec, hstep⟩ | ⟨hdec, hstep⟩
    · exact .inl ⟨f, hdec, by rw [exec_rsyStep_of_pureStep hl hstep, advanced_frame]⟩
    · exact .inr (.inl ⟨hdec, by rw [exec_rsyStep_of_pureStep hl hstep, advanced_of_no_frame s rfl]⟩)
    · exact .inr (.inr ⟨hdec, by rw [exec_rsyStep_of_pureStep hl hstep, advanced_of_no_frame s rfl]⟩)

/-! ### Repeated iterations as a function of the buffer (R99, R100) -/

/-- The outcomes of `n` iterations that are no stop, and the bytes left. -/
def pureSteps : Nat → List Byte → List StepOutcome × List Byte
  | 0, b => ([], b)
  | n + 1, b => (progress (.step (pureStep b).1) ++ (pureSteps n (pureStep b).2).1, (pureSteps n (pureStep b).2).2)

/-- As many iterations as bytes are buffered: then the loop stands at a stop. -/
def settle (b : List Byte) : List StepOutcome × List Byte := pureSteps b.length b

/-- Past a stop nothing happens any more (R100 item 2). -/
theorem pureSteps_of_stop {b : List Byte} (h : isStop (pureStep b).1 = true) (n : Nat) : pureSteps n b = ([], b) := by
  induction n with
  | zero => rfl
  | succ n ih => rw [pureSteps, pureStep_rest_of_stop h, ih, progress_of_stop h]; rfl

theorem pureSteps_succ_of_go {b : List Byte} (h : isStop (pureStep b).1 = false) (n : Nat) :
    pureSteps (n + 1) b = ((pureStep b).1 :: (pureSteps n (pureStep b).2).1, (pureSteps n (pureStep b).2).2) := by
  rw [pureSteps, progress_of_go h]; rfl

/-- Every byte pays for at most one iteration that is no stop (R100 item 8). -/
theorem pureSteps_ends_at_stop {n : Nat} {b : List Byte} (h : b.length ≤ n) :
    isStop (pureStep (pureSteps n b).2).1 = true := by
  induction n generalizing b with
  | zero =>
    rw [List.length_eq_zero_iff.mp (Nat.le_zero.mp h)]
    rfl
  | succ n ih =>
    rcases pureStep_stop_or_shorter b with ⟨hstop, -⟩ | ⟨hgo, hshorter⟩
    · rwa [pureSteps_of_stop hstop]
    · rw [pureSteps_succ_of_go hgo]
      exact ih (by omega)

/-- Iterations past the point where the loop stands at a stop add nothing. -/
theorem pureSteps_stable {n m : Nat} {b : List Byte} (hstop : isStop (pureStep (pureSteps n b).2).1 = true)
    (h : n ≤ m) : pureSteps m b = pureSteps n b := by
  induction n generalizing m b with
  | zero => exact pureSteps_of_stop hstop m
  | succ n ih =>
    obtain ⟨m, rfl⟩ : ∃ k, m = k + 1 := ⟨m - 1, by omega⟩
    have htail : pureSteps m (pureStep b).2 = pureSteps n (pureStep b).2 := ih hstop (by omega)
    rw [pureSteps, htail, pureSteps]

theorem pureSteps_eq_settle {n : Nat} {b : List Byte} (h : b.length ≤ n) : pureSteps n b = settle b :=
  pureSteps_stable (pureSteps_ends_at_stop le_rfl) h

theorem settle_ends_at_stop (b : List Byte) : isStop (pureStep (settle b).2).1 = true :=
  pureSteps_ends_at_stop le_rfl

theorem settle_of_stop {b : List Byte} (h : isStop (pureStep b).1 = true) : settle b = ([], b) :=
  pureSteps_of_stop h _

theorem settle_of_go {b : List Byte} (h : isStop (pureStep b).1 = false) :
    settle b = ((pureStep b).1 :: (settle (pureStep b).2).1, (settle (pureStep b).2).2) := by
  have hshorter : (pureStep b).2.length ≤ b.length := by
    rcases pureStep_stop_or_shorter b with ⟨hstop, -⟩ | ⟨-, hshorter⟩
    · simp [h] at hstop
    · exact hshorter.le
  rw [← pureSteps_eq_settle (Nat.le_succ b.length), pureSteps_succ_of_go h, pureSteps_eq_settle hshorter]

/-- At most one outcome an iteration. -/
theorem pureSteps_outcomes_length_le (n : Nat) (b : List Byte) : (pureSteps n b).1.length ≤ n := by
  induction n generalizing b with
  | zero => exact le_rfl
  | succ n ih =>
    rcases pureStep_stop_or_shorter b with ⟨hstop, -⟩ | ⟨hgo, -⟩
    · simp [pureSteps_of_stop hstop]
    · simpa [pureSteps_succ_of_go hgo] using ih _

/-- The iterations before the first stop are as many as their outcomes. -/
theorem pureSteps_outcomes_length (n : Nat) (b : List Byte) : pureSteps (pureSteps n b).1.length b = pureSteps n b := by
  induction n generalizing b with
  | zero => rfl
  | succ n ih =>
    rcases pureStep_stop_or_shorter b with ⟨hstop, -⟩ | ⟨hgo, -⟩
    · rw [pureSteps_of_stop hstop, pureSteps_of_stop hstop]
    · rw [pureSteps_succ_of_go hgo, List.length_cons, pureSteps_succ_of_go hgo, ih]

/-- Outcome number `m` is that of the iteration after `m` iterations, and is no stop. -/
theorem pureSteps_getElem? {n m : Nat} {b : List Byte} {x : StepOutcome} (h : (pureSteps n b).1[m]? = some x) :
    isStop x = false ∧ (pureStep (pureSteps m b).2).1 = x := by
  induction n generalizing m b with
  | zero => simp [pureSteps] at h
  | succ n ih =>
    rcases pureStep_stop_or_shorter b with ⟨hstop, -⟩ | ⟨hgo, -⟩
    · simp [pureSteps_of_stop hstop] at h
    · rw [pureSteps_succ_of_go hgo] at h
      cases m with
      | zero =>
        obtain rfl : (pureStep b).1 = x := by simpa using h
        exact ⟨hgo, rfl⟩
      | succ m =>
        rw [pureSteps_succ_of_go hgo]
        exact ih (by simpa using h)

theorem pureSteps_rest_length_le (n : Nat) (b : List Byte) : (pureSteps n b).2.length ≤ b.length := by
  induction n generalizing b with
  | zero => exact le_rfl
  | succ n ih =>
    rcases pureStep_stop_or_shorter b with ⟨hstop, -⟩ | ⟨hgo, hshorter⟩
    · rw [pureSteps_of_stop hstop]
    · rw [pureSteps_succ_of_go hgo]
      exact (ih _).trans hshorter.le

/-- Any number of iterations before more bytes arrive changes neither the outcomes nor what is left (R102). -/
theorem settle_append (k : Nat) (a b : List Byte) :
    settle (a ++ b) = ((pureSteps k a).1 ++ (settle ((pureSteps k a).2 ++ b)).1,
      (settle ((pureSteps k a).2 ++ b)).2) := by
  induction k generalizing a with
  | zero => rfl
  | succ k ih =>
    rcases pureStep_stop_or_shorter a with ⟨hstop, -⟩ | ⟨hgo, -⟩
    · rw [pureSteps_of_stop hstop]
      rfl
    · have hstep := pureStep_append b hgo
      rw [settle_of_go (by rwa [hstep]), hstep, ih, pureSteps_succ_of_go hgo]
      rfl

/-- The drain's loop returns the frames among the outcomes. -/
theorem pureDrain_eq_pureSteps (n : Nat) (b : List Byte) :
    pureDrain n b = (framesOf (pureSteps n b).1, (pureSteps n b).2) := by
  induction n generalizing b with
  | zero => rfl
  | succ n ih =>
    rw [pureDrain_succ, ih]
    rcases pureStep_stop_or_shorter b with ⟨hstop, -⟩ | ⟨hgo, -⟩
    · rw [if_pos hstop, pureSteps_of_stop hstop]
      rfl
    · rw [if_neg (Bool.eq_false_iff.mp hgo), pureSteps, framesOf_append, framesOf_progress_step]

theorem drainOf_eq_settle (b : List Byte) : drainOf b = (framesOf (settle b).1, (settle b).2) := by
  rw [drainOf, pureDrain_eq_pureSteps, pureSteps_eq_settle (Nat.le_succ _)]

/-- A state after a drain, by the iterations of the drain. -/
theorem drained_eq_advanced (s : State) (b : List Byte) :
    drained s b = advanced s (settle b).1 (settle b).2 (.frames (framesOf (settle b).1)) := by
  rw [drained, drainOf_eq_settle, advanced]

/-! ### The drain (R99, R103) -/

/-- Settles O22: the drain ends at a stop, and there a further step stops too. -/
theorem rsyDrainStopsWithinBound : Obligations.RsyDrainStopsWithinBound := by
  intro s hl
  have hstop : isStop (pureStep (drainOf s.abuf).2).1 = true := pureDrain_ends_at_stop (Nat.lt_succ_self _)
  exact ⟨(drainOf s.abuf).1, (drainOf s.abuf).2, exec_rsyDrain_eq hl, pureDrain_suffix _ _, drainOf_rest_length_le _,
    (pureStep (drainOf s.abuf).2).1, hstop,
    exec_rsyStep_of_stop (s := { s with abuf := (drainOf s.abuf).2 }) hl hstop⟩

/-- Running `is` from `s` makes the iterations with the outcomes `os`, stops left out, and leaves the bytes `rest`
and the result `r`; what the commands hand out tells of these outcomes and their frames. -/
def Advances (is : List Instr) (s : State) (os : List StepOutcome) (rest : List Byte) (r : Result) : Prop :=
  ∃ rs, execTrace is s = some (rs, advanced s os rest r) ∧ rs.flatMap progress = os ∧
    rs.flatMap confirmed = framesOf os

theorem execTrace_cons_of_next {i : Instr} {is : List Instr} {s t : State} (h : exec i s = .next t) :
    execTrace (i :: is) s = (execTrace is t).map (fun p => (t.result :: p.1, p.2)) := by
  rw [execTrace, h]; rfl

/-- A traced sequence begins with a command that gives a next state, and traces the rest from there. -/
theorem execTrace_cons_eq_some {i : Instr} {is : List Instr} {s t : State} {rs : List Result}
    (h : execTrace (i :: is) s = some (rs, t)) :
    ∃ v rs', exec i s = .next v ∧ execTrace is v = some (rs', t) ∧ rs = v.result :: rs' := by
  cases hexec : exec i s with
  | fault r => cases r
  | refused r => simp [execTrace, hexec, nextOf] at h
  | next v =>
    rw [execTrace_cons_of_next hexec] at h
    obtain ⟨⟨rs', u⟩, htail, hpair⟩ := Option.map_eq_some_iff.mp h
    obtain ⟨rfl, rfl⟩ := Prod.mk.inj hpair
    exact ⟨v, rs', rfl, htail, rfl⟩

/-- A sequence is traced part by part. -/
theorem execTrace_append {is js : List Instr} {s t u : State} {rs rs' : List Result}
    (h : execTrace is s = some (rs, t)) (h' : execTrace js t = some (rs', u)) :
    execTrace (is ++ js) s = some (rs ++ rs', u) := by
  induction is generalizing s rs with
  | nil =>
    obtain ⟨rfl, rfl⟩ := Prod.mk.inj (Option.some.inj h)
    exact h'
  | cons i is ih =>
    obtain ⟨v, rs₀, hexec, htail, rfl⟩ := execTrace_cons_eq_some h
    rw [List.cons_append, execTrace_cons_of_next hexec, ih htail]
    rfl

/-- A traced sequence runs through, to the same state. -/
theorem execAll_of_execTrace {is : List Instr} {s t : State} {rs : List Result} (h : execTrace is s = some (rs, t)) :
    execAll is s = .next t := by
  induction is generalizing s rs with
  | nil =>
    obtain ⟨-, rfl⟩ := Prod.mk.inj (Option.some.inj h)
    rfl
  | cons i is ih =>
    obtain ⟨v, rs₀, hexec, htail, -⟩ := execTrace_cons_eq_some h
    rw [execAll_cons_of_next hexec, ih htail]

theorem advances_nil (s : State) : Advances [] s [] s.abuf s.result :=
  ⟨[], by simp [execTrace, advanced, framesOf], rfl, rfl⟩

theorem advances_singleton {i : Instr} {s : State} {rest : List Byte} {r : Result}
    (hexec : exec i s = .next (advanced s (progress r) rest r)) (hr : confirmed r = framesOf (progress r)) :
    Advances [i] s (progress r) rest r :=
  ⟨[r], by rw [execTrace_cons_of_next hexec]; rfl, by simp, by simpa using hr⟩

theorem Advances.append {is js : List Instr} {s : State} {os os' : List StepOutcome} {rest rest' : List Byte}
    {r r' : Result} (h : Advances is s os rest r) (h' : Advances js (advanced s os rest r) os' rest' r') :
    Advances (is ++ js) s (os ++ os') rest' r' := by
  obtain ⟨rs, htrace, hprogress, hconfirmed⟩ := h
  obtain ⟨rs', htrace', hprogress', hconfirmed'⟩ := h'
  refine ⟨rs ++ rs', ?_, ?_, ?_⟩
  · rw [execTrace_append htrace htrace', advanced_advanced]
  · rw [List.flatMap_append, hprogress, hprogress']
  · rw [List.flatMap_append, hconfirmed, hconfirmed', framesOf_append]

theorem advances_step {s : State} (hl : s.lifecycle = .ready) :
    Advances [.rsyStep] s (progress (.step (pureStep s.abuf).1)) (pureStep s.abuf).2 (.step (pureStep s.abuf).1) :=
  advances_singleton (exec_rsyStep_advances hl) (confirmed_step _)

/-- At least one `RSY.STEP`: the iterations of the buffer, and the outcome of the last of them. -/
theorem advances_steps_succ {s : State} (hl : s.lifecycle = .ready) (n : Nat) :
    Advances (List.replicate (n + 1) .rsyStep) s (pureSteps (n + 1) s.abuf).1 (pureSteps (n + 1) s.abuf).2
      (.step (pureStep (pureSteps n s.abuf).2).1) := by
  induction n generalizing s with
  | zero => simpa [pureSteps] using advances_step hl
  | succ n ih => exact (advances_step hl).append (ih (s := advanced s _ _ _) hl)

/-- Any number of `RSY.STEP`s. -/
theorem advances_steps {s : State} (hl : s.lifecycle = .ready) (n : Nat) :
    ∃ r, Advances (List.replicate n .rsyStep) s (pureSteps n s.abuf).1 (pureSteps n s.abuf).2 r := by
  cases n with
  | zero => exact ⟨_, advances_nil s⟩
  | succ n => exact ⟨_, advances_steps_succ hl n⟩

/-- More `RSY.STEP`s than bytes buffered: the loop is settled, and the last of them stops. -/
theorem advances_steps_settle {s : State} (hl : s.lifecycle = .ready) {n : Nat} (h : s.abuf.length < n) :
    Advances (List.replicate n .rsyStep) s (settle s.abuf).1 (settle s.abuf).2
      (.step (pureStep (settle s.abuf).2).1) := by
  obtain ⟨n, rfl⟩ : ∃ k, n = k + 1 := ⟨n - 1, by omega⟩
  have hsteps := advances_steps_succ hl n
  rwa [pureSteps_eq_settle (show s.abuf.length ≤ n by omega), pureSteps_eq_settle h.le] at hsteps

/-- Settles O23: the outcomes are those of the settled loop, and the first step behind them stops. -/
theorem rsyDrainIsRepeatedStep : Obligations.RsyDrainIsRepeatedStep := by
  intro s hl
  have hsettled : pureSteps (settle s.abuf).1.length s.abuf = settle s.abuf := pureSteps_outcomes_length _ _
  have hstop := settle_ends_at_stop s.abuf
  have hafter : pureSteps ((settle s.abuf).1.length + 1) s.abuf = settle s.abuf := by
    rw [pureSteps_stable (by rwa [hsettled]) (Nat.le_succ _), hsettled]
  refine ⟨(settle s.abuf).1, (pureStep (settle s.abuf).2).1,
    advanced s (settle s.abuf).1 (settle s.abuf).2 .none, pureSteps_outcomes_length_le _ _, ?_, hstop, ?_, ?_, rfl,
    length_le_of_pureStep_stop hstop⟩
  · intro m x hx
    obtain ⟨hgo, rfl⟩ := pureSteps_getElem? hx
    obtain ⟨_, htrace, -⟩ := advances_steps_succ hl m
    exact ⟨hgo, _, execAll_of_execTrace htrace, rfl⟩
  · obtain ⟨_, htrace, -⟩ := advances_steps_succ hl (settle s.abuf).1.length
    rw [execAll_of_execTrace htrace, hafter, hsettled]
    rfl
  · rw [exec_rsyDrain_eq hl, drained_eq_advanced]
    rfl

/-! ### However the bytes are cut (R102) -/

/-- A push within the capacity is no iteration. -/
theorem advances_push {b : List Byte} {s : State} (hl : s.lifecycle = .ready)
    (hcap : s.abuf.length + b.length ≤ abufCap s) : Advances [.rsyPush b] s [] (s.abuf ++ b) .none := by
  have hexec : exec (.rsyPush b) s = .next (advanced s (progress .none) (s.abuf ++ b) .none) := by
    rw [exec_rsyPush_eq hl hcap, advanced_of_no_frame s rfl]
  exact advances_singleton hexec rfl

/-- Pushes within the capacity, each followed by any number of steps: what is left of the bytes has still to give
what all of them give together. -/
theorem advances_pushesAndSteps (cuts : List (List Byte × Nat)) {s : State} (hl : s.lifecycle = .ready)
    (hcap : s.abuf.length + (cuts.flatMap (fun c => c.1)).length ≤ abufCap s) :
    ∃ os rest r, Advances (pushesAndSteps cuts) s os rest r ∧
      settle (s.abuf ++ cuts.flatMap (fun c => c.1)) = (os ++ (settle rest).1, (settle rest).2) ∧
      rest.length ≤ s.abuf.length + (cuts.flatMap (fun c => c.1)).length := by
  induction cuts generalizing s with
  | nil => exact ⟨[], s.abuf, s.result, advances_nil s, by simp, by simp⟩
  | cons c cuts ih =>
    obtain ⟨b, k⟩ := c
    simp only [List.flatMap_cons, List.length_append] at hcap ⊢
    obtain ⟨r, hsteps⟩ := advances_steps (s := advanced s [] (s.abuf ++ b) .none) hl k
    have hhead := (advances_push hl (by omega)).append hsteps
    have hleft := pureSteps_rest_length_le k (s.abuf ++ b)
    rw [List.length_append] at hleft
    obtain ⟨os, rest, r', htail, hsettle, hlen⟩ :=
      ih (s := advanced s (pureSteps k (s.abuf ++ b)).1 (pureSteps k (s.abuf ++ b)).2 r)
        hl (by rw [advanced_abuf, abufCap_advanced]; omega)
    rw [advanced_abuf] at hsettle hlen
    refine ⟨_, rest, r', hhead.append htail, ?_, by omega⟩
    rw [← List.append_assoc, settle_append k, hsettle, List.nil_append, List.append_assoc]
    rfl

/-- Followed by more steps than bytes, they settle all the bytes together. -/
theorem advances_pushesAndSteps_settle (cuts : List (List Byte × Nat)) {b : List Byte} {s : State} {n : Nat}
    (hl : s.lifecycle = .ready) (hb : b = cuts.flatMap (fun c => c.1))
    (hcap : s.abuf.length + b.length ≤ abufCap s) (hn : s.abuf.length + b.length < n) :
    Advances (pushesAndSteps cuts ++ List.replicate n .rsyStep) s (settle (s.abuf ++ b)).1 (settle (s.abuf ++ b)).2
      (.step (pureStep (settle (s.abuf ++ b)).2).1) := by
  subst hb
  obtain ⟨os, rest, r, hpushes, hsettle, hlen⟩ := advances_pushesAndSteps cuts hl hcap
  rw [hsettle]
  exact hpushes.append (advances_steps_settle (s := advanced s os rest r) hl (hlen.trans_lt hn))

/-- Followed by a drain, they confirm the frames of one feed of all the bytes, and leave what it leaves. -/
theorem pushesAndSteps_drain (cuts : List (List Byte × Nat)) {b : List Byte} {s : State}
    (hl : s.lifecycle = .ready) (hb : b = cuts.flatMap (fun c => c.1))
    (hcap : s.abuf.length + b.length ≤ abufCap s) :
    ∃ (rs : List Result) (t : State), execTrace (pushesAndSteps cuts ++ [.rsyDrain]) s = some (rs, t) ∧
      exec (.rsyFeed b) s = .next { t with result := .frames (rs.flatMap confirmed) } := by
  subst hb
  obtain ⟨os, rest, r, ⟨rs, htrace, -, hconfirmed⟩, hsettle, -⟩ := advances_pushesAndSteps cuts hl hcap
  have hdrain : exec .rsyDrain (advanced s os rest r) = .next (drained (advanced s os rest r) rest) :=
    exec_rsyDrain_eq hl
  refine ⟨rs ++ [.frames (drainOf rest).1], drained (advanced s os rest r) rest, ?_, ?_⟩
  · refine execTrace_append htrace ?_
    rw [execTrace_cons_of_next hdrain]
    rfl
  · rw [exec_rsyFeed_eq hl hcap, drained_eq_advanced, drained_eq_advanced, advanced_advanced, hsettle,
      List.flatMap_append, hconfirmed, framesOf_append, drainOf_eq_settle]
    simp [advanced, confirmed]

/-- Draining before more bytes arrive changes neither the frames nor what is left. -/
theorem drainOf_append (a b : List Byte) : drainOf (a ++ b) =
    ((drainOf a).1 ++ (drainOf ((drainOf a).2 ++ b)).1, (drainOf ((drainOf a).2 ++ b)).2) :=
  pureDrain_append _ _ _ a b (Nat.lt_succ_self _) (Nat.lt_succ_self _) (Nat.lt_succ_self _)

/-- Two drains with a push between them are one, but for the result port. -/
theorem drained_append (s : State) (a b : List Byte) : drained s (a ++ b) =
    { drained (drained s a) ((drainOf a).2 ++ b) with
      result := .frames ((drainOf a).1 ++ (drainOf ((drainOf a).2 ++ b)).1) } := by
  simp only [drained, drainOf_append a b, emitted_append, List.append_assoc]

/-- Two feeds are one of all the bytes. -/
theorem rsyFeed_append {a b : List Byte} {s : State} (hl : s.lifecycle = .ready)
    (hcap : s.abuf.length + a.length + b.length ≤ abufCap s) :
    ∃ (t u : State) (fa fb : List Frame), exec (.rsyFeed a) s = .next t ∧ t.result = .frames fa ∧
      exec (.rsyFeed b) t = .next u ∧ u.result = .frames fb ∧
      exec (.rsyFeed (a ++ b)) s = .next { u with result := .frames (fa ++ fb) } := by
  have hleft : (drainOf (s.abuf ++ a)).2.length ≤ (s.abuf ++ a).length := (pureDrain_suffix _ _).length_le
  rw [List.length_append] at hleft
  have hcapb : (drainOf (s.abuf ++ a)).2.length + b.length ≤ abufCap s := by omega
  refine ⟨drained s (s.abuf ++ a), _, (drainOf (s.abuf ++ a)).1, (drainOf ((drainOf (s.abuf ++ a)).2 ++ b)).1,
    exec_rsyFeed_eq hl (by omega), rfl, exec_rsyFeed_eq hl hcapb, rfl, ?_⟩
  rw [exec_rsyFeed_eq hl (by rw [List.length_append]; omega), ← List.append_assoc, drained_append]
  rfl

/-- Settles O25: two feeds, any cuts before a drain, and any cuts before enough steps, of which one push is a case. -/
theorem chunkingDoesNotMatter : Obligations.ChunkingDoesNotMatter := by
  refine ⟨fun a b s hl hcap => rsyFeed_append hl hcap, fun cuts bytes s hl hbytes hcap => ?_⟩
  refine ⟨pushesAndSteps_drain cuts hl hbytes hcap, fun n hn => ?_⟩
  obtain ⟨rs, htrace, hprogress, -⟩ := advances_pushesAndSteps_settle cuts hl hbytes hcap hn
  obtain ⟨rs', htrace', hprogress', -⟩ := advances_pushesAndSteps_settle [(bytes, 0)] hl (by simp) hcap hn
  have hone : pushesAndSteps [(bytes, n)] = pushesAndSteps [(bytes, 0)] ++ List.replicate n .rsyStep := by
    simp [pushesAndSteps]
  exact ⟨rs, rs', _, htrace, hone ▸ htrace', hprogress.trans hprogress'.symm⟩

/-! ### Convergence over garbage (R104) -/

theorem drainOf_of_stop {b : List Byte} (h : isStop (pureStep b).1 = true) : drainOf b = ([], b) := by
  rw [drainOf_eq_settle, settle_of_stop h]
  rfl

theorem drainOf_of_frame {b rest : List Byte} {f : Frame} (h : pureStep b = (.frame f, rest)) :
    drainOf b = (f :: (drainOf rest).1, (drainOf rest).2) := by
  rw [drainOf_eq_settle, settle_of_go (by rw [h]; rfl), h, drainOf_eq_settle]
  rfl

theorem drainOf_of_slip {b rest : List Byte} {c : Condition} (h : pureStep b = (.slip c, rest)) :
    drainOf b = drainOf rest := by
  rw [drainOf_eq_settle, settle_of_go (by rw [h]; rfl), h, drainOf_eq_settle]
  rfl

/-- A complete window that does not decode to a Frame costs one byte. -/
theorem pureStep_of_silentFront {b : List Byte} (hsilent : silentFront b = true) (hfull : frameLength b ≤ b.length) :
    ∃ c, pureStep b = (.slip c, b.drop 1) := by
  rcases pureStep_of_full hfull with ⟨f, hdec, -⟩ | ⟨-, hstep⟩ | ⟨-, hstep⟩
  · simp [silentFront, hdec] at hsilent
  · exact ⟨_, hstep⟩
  · exact ⟨_, hstep⟩

theorem silentIn_cons (x : Byte) (g rest : List Byte) :
    silentIn (x :: g) rest = (silentFront (x :: g ++ rest) && silentIn g rest) := by
  simp [silentIn, List.range_succ_eq_map, List.all_map, Function.comp_def]

/-- Garbage with a longest frame's bytes behind it is slipped over whole (P1, P2): no window inside it waits. -/
theorem drainOf_garbage_append {g rest : List Byte} (hsilent : silentIn g rest = true) (hlong : 265 ≤ rest.length) :
    drainOf (g ++ rest) = drainOf rest := by
  induction g with
  | nil => rfl
  | cons x g ih =>
    rw [silentIn_cons, Bool.and_eq_true] at hsilent
    obtain ⟨hfront, hbehind⟩ := hsilent
    obtain ⟨-, hmax⟩ := frameLength_bounds (x :: g ++ rest)
    have hlen : rest.length ≤ (x :: g ++ rest).length := by rw [List.length_append]; omega
    obtain ⟨c, hstep⟩ := pureStep_of_silentFront hfront (by omega)
    rw [drainOf_of_slip hstep]
    exact ih hbehind

/-- Garbage with nothing behind it gives no frame, wherever the drain stops in it. -/
theorem drainOf_garbage {g : List Byte} (hsilent : silentIn g [] = true) : (drainOf g).1 = [] := by
  induction g with
  | nil => rfl
  | cons x g ih =>
    rw [silentIn_cons, Bool.and_eq_true, List.append_nil] at hsilent
    obtain ⟨hfront, hbehind⟩ := hsilent
    rcases pureStep_stop_or_shorter (x :: g) with ⟨hstop, -⟩ | ⟨hgo, -⟩
    · rw [drainOf_of_stop hstop]
    · obtain ⟨c, hstep⟩ := pureStep_of_silentFront hfront (frameLength_le_of_pureStep_go hgo)
      rw [drainOf_of_slip hstep]
      exact ih hbehind

/-- What the sender encoded is the next frame, whatever stands behind it (R90, R98). -/
theorem pureStep_encoded_append {f : Frame} (h : sendable f = true) (rest : List Byte) :
    pureStep (encoded f ++ rest) = (.frame (normalised f), rest) := by
  obtain ⟨hfits, hnonzero⟩ : f.payload.length ≤ 255 ∧ isZeroFrame f = false := by
    simpa [sendable, payloadFits] using h
  have hlen : frameLength (encoded f ++ rest) = (encoded f).length := by
    rw [frameLength_append _ (by simp), encoded_length, frameLength, encoded, declaredLength_frameBytes,
      normalised_len hfits]
    rfl
  have hwindow : decFrame ((encoded f ++ rest).take (frameLength (encoded f ++ rest))) = .frame (normalised f) := by
    rw [hlen, List.take_left, decFrame_encoded hfits hnonzero]
  rcases pureStep_of_full (b := encoded f ++ rest) (by rw [hlen]; simp) with
    ⟨g, hdec, hstep⟩ | ⟨hdec, -⟩ | ⟨hdec, -⟩
  · obtain rfl : normalised f = g := by simpa [hwindow] using hdec
    rw [hstep, hlen, List.drop_left]
  · simp [hwindow] at hdec
  · simp [hwindow] at hdec

theorem tail_length_le_wireStream (xs : List (List Byte × Frame)) (tail : List Byte) :
    tail.length ≤ (wireStream xs tail).length := by
  induction xs with
  | nil => exact le_rfl
  | cons x xs ih => simp only [wireStream, List.length_append]; omega

/-- The drain of a stream that meets the premises of R104: its frames, and then what it makes of the bytes behind
the last of them. -/
theorem drainOf_wireStream {xs : List (List Byte × Frame)} {tail : List Byte}
    (hsend : ∀ x ∈ xs, sendable x.2 = true) (hsilent : garbageSilent xs tail = true) (htail : 255 ≤ tail.length) :
    drainOf (wireStream xs tail) = (xs.map (fun x => normalised x.2), (drainOf tail).2) := by
  induction xs with
  | nil => exact Prod.ext (drainOf_garbage hsilent) rfl
  | cons x xs ih =>
    obtain ⟨g, f⟩ := x
    rw [garbageSilent, Bool.and_eq_true] at hsilent
    obtain ⟨hgarbage, hbehind⟩ := hsilent
    obtain ⟨hf, hxs⟩ := List.forall_mem_cons.mp hsend
    have hlong : 265 ≤ (encoded f ++ wireStream xs tail).length := by
      have := tail_length_le_wireStream xs tail
      rw [List.length_append, encoded_length]; omega
    rw [wireStream, drainOf_garbage_append hgarbage hlong, drainOf_of_frame (pureStep_encoded_append hf _),
      ih hxs hbehind]
    rfl

/-- Settles O26: the drain of the stream, carried to the command. -/
theorem resyncConvergesOverGarbage : Obligations.ResyncConvergesOverGarbage := by
  intro s xs tail hl habuf hsend hsilent htail
  refine ⟨(drainOf tail).2, ?_, pureDrain_suffix _ _⟩
  rw [exec_rsyDrain_eq hl, habuf, drained, drainOf_wireStream hsend hsilent htail]

end Sys2Proof.Proofs
end

section
/-! PROOFS. The lifecycle controller and the worker (44_engine.md): the host's lifecycle commands (R106 to R110), the
worker's five steps (R111 to R116), what persists (R8, R122), the cycle of a dead transport (R124), and the bound on
the turns between a shutdown request and the worker's exit (R125). -/

namespace Sys2Proof.Proofs

open Sys2Proof Sys2Proof.Machine

/-! ### The lifecycle commands (R106 to R110) -/

theorem exec_start_of_ready {s : State} (hl : s.lifecycle = .ready) : exec .start s = .next { s with
    lifecycle := .running, abuf := [], rderr := false, phase := .guard, result := .ok } :=
  if_pos hl

theorem exec_start_of_not_ready {s : State} (hl : s.lifecycle ≠ .ready) :
    exec .start s = .next { s with result := .error .notReady } :=
  if_neg hl

theorem exec_shutdown_of_running_or_invalid {s : State} (hl : s.lifecycle = .running ∨ s.lifecycle = .invalid) :
    exec .shutdown s = .next { s with lifecycle := .stopping, result := .waiting } :=
  if_pos hl

theorem exec_shutdown_of_ready_or_stopping {s : State} (hl : s.lifecycle = .ready ∨ s.lifecycle = .stopping) :
    exec .shutdown s = .next { s with result := .error .notRunning } := by
  have hnot : ¬ (s.lifecycle = .running ∨ s.lifecycle = .invalid) := by
    rcases hl with hready | hstopping
    · simp [hready]
    · simp [hstopping]
  exact if_neg hnot

theorem doneEnabled_iff (s : State) : doneEnabled s = true ↔ s.lifecycle = .stopping ∧ s.phase = .idle := by
  simp only [doneEnabled, Bool.and_eq_true, beq_iff_eq]

theorem exec_shutdownDone_of_enabled {s : State} (hl : s.lifecycle = .stopping) (hp : s.phase = .idle) :
    exec .shutdownDone s = .next { s with lifecycle := .ready, result := .ok } :=
  if_pos ((doneEnabled_iff s).mpr ⟨hl, hp⟩)

theorem exec_probe_of_room {k : Sink} {s : State} (hl : s.lifecycle = .ready)
    (hroom : s.probes.length ≠ s.nprobeMax) :
    exec (.probe k) s = .next { s with probes := s.probes ++ [k], result := .none } :=
  (if_neg (not_not.mpr hl)).trans (if_neg hroom)

theorem exec_probe_of_not_ready {k : Sink} {s : State} (hl : s.lifecycle ≠ .ready) :
    exec (.probe k) s = .refused .probeWhileNotReady :=
  if_pos hl

theorem exec_probe_of_full {k : Sink} {s : State} (hl : s.lifecycle = .ready)
    (hfull : s.probes.length = s.nprobeMax) : exec (.probe k) s = .refused .probeRegistryFull :=
  (if_neg (not_not.mpr hl)).trans (if_pos hfull)

/-- Settles O27: the two sides of the test of `STATE`. -/
theorem startCreatesWorkerOrNotReady : Obligations.StartCreatesWorkerOrNotReady :=
  ⟨rfl, fun _ => exec_start_of_ready, fun _ => exec_start_of_not_ready⟩

/-- Settles O28: the four `STATE`s, two on each side of the guard. -/
theorem shutdownRequestsStopOrNotRunning : Obligations.ShutdownRequestsStopOrNotRunning :=
  ⟨rfl, fun _ => exec_shutdown_of_running_or_invalid, fun _ => exec_shutdown_of_ready_or_stopping⟩

/-- Settles O29: the enabling condition, and the completion where it holds. -/
theorem shutdownDoneCompletesWhenWorkerGone : Obligations.ShutdownDoneCompletesWhenWorkerGone :=
  ⟨doneEnabled_iff, fun _ => exec_shutdownDone_of_enabled⟩

/-- Settles O30: the test of `STATE`, then the test of the registry. -/
theorem probeAppendsInReadyOnly : Obligations.ProbeAppendsInReadyOnly :=
  ⟨fun _ => rfl, fun _ _ hl hroom => exec_probe_of_room hl hroom.ne, fun _ _ => exec_probe_of_not_ready,
    fun _ _ => exec_probe_of_full⟩

/-- Settles O31: the result port is all that `STATUS` writes. -/
theorem statusReturnsState : Obligations.StatusReturnsState :=
  ⟨rfl, fun _ => rfl⟩

/-! ### The worker's steps, each in its own phase (R112 to R116) -/

theorem whenPhase_of_phase {p : Phase} {s : State} (hp : s.phase = p) (a : Answer) : whenPhase p s a = a :=
  if_pos hp

theorem exec_wGuard_of_cancelled {s : State} (hp : s.phase = .guard) (hl : s.lifecycle ≠ .running) :
    exec .wGuard s = .next { s with phase := .idle, result := .none } :=
  (whenPhase_of_phase hp _).trans (congrArg Host.Outcome.next (if_pos hl))

theorem exec_wGuard_of_invalid {s : State} (hp : s.phase = .guard) (hl : s.lifecycle = .running)
    (hv : s.tvalid = false) :
    exec .wGuard s = .next { s with lifecycle := .invalid, phase := .idle, result := .none } :=
  (whenPhase_of_phase hp _).trans (congrArg Host.Outcome.next ((if_neg (not_not.mpr hl)).trans (if_pos hv)))

theorem exec_wGuard_of_valid {s : State} (hp : s.phase = .guard) (hl : s.lifecycle = .running)
    (hv : s.tvalid = true) : exec .wGuard s = .next { s with phase := .openchk, result := .none } :=
  (whenPhase_of_phase hp _).trans
    (congrArg Host.Outcome.next ((if_neg (not_not.mpr hl)).trans (if_neg (by simp [State.tIsValid, hv]))))

theorem exec_wOpenchk_of_closed {s : State} (hp : s.phase = .openchk) (ho : s.topen = false) (ok dies : Bool) :
    exec (.wOpenchk ok dies) s = .next { s with
      abuf := [], topen := ok, tvalid := s.tvalid && !dies, phase := .read, result := .none } :=
  (whenPhase_of_phase hp _).trans (congrArg (fun t => Host.Outcome.next (State.ret t .none)) (if_pos ho))

theorem exec_wOpenchk_of_open {s : State} (hp : s.phase = .openchk) (ho : s.topen = true) (ok dies : Bool) :
    exec (.wOpenchk ok dies) s = .next { s with phase := .read, result := .none } :=
  (whenPhase_of_phase hp _).trans
    (congrArg (fun t => Host.Outcome.next (State.ret t .none)) (if_neg (by simp [State.tIsOpen, ho])))

theorem exec_wRead_eq {s : State} (hp : s.phase = .read) (n : Nat) (err dies : Bool) :
    exec (.wRead n err dies) s = .next { s with
      abuf := s.abuf ++ s.tstream.take (min n s.rdMax), tstream := s.tstream.drop (min n s.rdMax)
      tvalid := s.tvalid && !dies, rderr := err, phase := .extract, result := .none } :=
  whenPhase_of_phase hp _

/-- `W.EXTRACT` through the iteration as a function of the buffer: the same outcome, bytes and dispatches as
`RSY.STEP` (R115). -/
theorem exec_wExtract_eq {s : State} (hp : s.phase = .extract) : exec .wExtract s = .next { s with
    abuf := (pureStep s.abuf).2, out := s.out ++ emitted s.probes (framesOf [(pureStep s.abuf).1])
    phase := if isStop (pureStep s.abuf).1 then .errchk else .extract, result := .none } := by
  have hexec : exec .wExtract s = answerOf (resyncStep s)
      (fun p => (if isStop p.1 then p.2.setPhase .errchk else p.2).ret .none) := whenPhase_of_phase hp _
  rw [hexec, resyncStep_pure, answerOf]
  cases hstop : isStop (pureStep s.abuf).1 with
  | true => rfl
  | false => simp [State.ret, hp]

theorem exec_wErrchk_of_error {s : State} (hp : s.phase = .errchk) (hr : s.rderr = true) (dies : Bool) :
    exec (.wErrchk dies) s = .next { s with
      topen := false, tvalid := s.tvalid && !dies, phase := .guard, result := .none } :=
  (whenPhase_of_phase hp _).trans
    (congrArg (fun t => Host.Outcome.next ((State.setPhase t .guard).ret .none)) (if_pos hr))

theorem exec_wErrchk_of_no_error {s : State} (hp : s.phase = .errchk) (hr : s.rderr = false) (dies : Bool) :
    exec (.wErrchk dies) s = .next { s with phase := .guard, result := .none } :=
  (whenPhase_of_phase hp _).trans
    (congrArg (fun t => Host.Outcome.next ((State.setPhase t .guard).ret .none))
      (if_neg (by simp [transportReadError, hr])))

/-- Settles O33: the cancellation test, then the validity test. -/
theorem guardTestsCancellationThenValidity : Obligations.GuardTestsCancellationThenValidity :=
  fun _ hp => ⟨exec_wGuard_of_cancelled hp, exec_wGuard_of_invalid hp, exec_wGuard_of_valid hp⟩

/-- Settles O34: the two sides of the test of `TOPEN`. -/
theorem openchkClearsOnClosedTransport : Obligations.OpenchkClearsOnClosedTransport :=
  fun ok dies _ hp =>
    ⟨fun ho => exec_wOpenchk_of_closed hp ho ok dies, fun ho => exec_wOpenchk_of_open hp ho ok dies⟩

/-- Settles O35: the stream is cut at `min n RD_MAX`; its front moves and the rest stays. -/
theorem readMovesStreamBytesInOrder : Obligations.ReadMovesStreamBytesInOrder := by
  intro n err dies s hp
  exact ⟨s.tstream.take (min n s.rdMax), s.tstream.drop (min n s.rdMax), (List.take_append_drop _ _).symm,
    List.length_take, exec_wRead_eq hp n err dies⟩

/-- Settles O36: both are the one iteration of R98 on the buffer; `STATE` is not looked at. -/
theorem extractIsOneInnerIteration : Obligations.ExtractIsOneInnerIteration := by
  intro s hp
  exact ⟨(pureStep s.abuf).1, { s with
    lifecycle := .ready, abuf := (pureStep s.abuf).2
    out := s.out ++ emitted s.probes (framesOf [(pureStep s.abuf).1]) }, exec_rsyStep_eq rfl, exec_wExtract_eq hp⟩

/-- Settles O37: the two values of `RDERR`. -/
theorem errchkClosesAfterReadError : Obligations.ErrchkClosesAfterReadError :=
  fun dies _ hp => ⟨fun hr => exec_wErrchk_of_error hp hr dies, fun hr => exec_wErrchk_of_no_error hp hr dies⟩

/-! ### The block's own turn (R63, R111) -/

/-- The block's step that `PHASE` names, with the transport's answers; in `IDLE` the completion of a shutdown where it
is enabled, and otherwise none. -/
def blockInstr (s : State) (a : TAnswer) : Except DecodeReject Instr :=
  match s.phase with
  | .idle => if s.lifecycle = .stopping then .ok .shutdownDone else .error .selIdle
  | .guard => .ok .wGuard
  | .openchk => .ok (.wOpenchk a.openOk a.dies)
  | .read => .ok (.wRead a.readLen a.readErr a.dies)
  | .extract => .ok .wExtract
  | .errchk => .ok (.wErrchk a.dies)

/-- The selector a state presents decodes to the step its `PHASE` names (R63). -/
theorem decode_selOf (s : State) (a : TAnswer) : decode (.sel (selOf s) a) = blockInstr s a := by
  simp only [selOf, blockInstr]
  cases s.phase <;> cases s.lifecycle <;> rfl

theorem fetchWord_of_block_turn {s : State} {a : TAnswer} {rest : List Turn} (hturns : s.turns = .block a :: rest) :
    fetchWord (takeTurn s).1 (takeTurn s).2 = some (.sel (selOf s) a) := by
  rw [takeTurn_of_cons hturns]
  rfl

theorem step_of_block_turn {s : State} {a : TAnswer} {rest : List Turn} {i : Instr}
    (hturns : s.turns = .block a :: rest) (hi : blockInstr s a = .ok i) :
    step s = exec i { s with turns := rest } := by
  rw [step_of_decode (fetchWord_of_block_turn hturns) ((decode_selOf s a).trans hi), takeTurn_of_cons hturns]

theorem step_of_idle_block_turn {s : State} {a : TAnswer} {rest : List Turn} {e : DecodeReject}
    (hturns : s.turns = .block a :: rest) (he : blockInstr s a = .error e) :
    step s = .next { s with turns := rest, result := .none } := by
  rw [step_of_decode_error (fetchWord_of_block_turn hturns) ((decode_selOf s a).trans he), takeTurn_of_cons hturns]
  rfl

/-- Settles O38: phase by phase, the step that the selector names. -/
theorem blockTurnRunsThePhasesStep : Obligations.BlockTurnRunsThePhasesStep := by
  rintro s a rest _ hturns rfl
  refine ⟨fun hp => ?_, fun hp => ?_, fun hp => ?_, fun hp => ?_, fun hp => ?_, fun hp hl => ?completes,
    fun hp hl => ?nothing⟩
  case completes => exact step_of_block_turn hturns (by simp [blockInstr, hp, hl])
  case nothing => exact step_of_idle_block_turn hturns (e := .selIdle) (by simp [blockInstr, hp, hl])
  all_goals exact step_of_block_turn hturns (by simp only [blockInstr, hp])

/-! ### What persists (R8, R122) -/

/-- No instruction makes an invalid transport valid again: the three requests on it can only lower `TVALID`. -/
theorem changes_tvalid_of_invalid {s t : State} {i : Instr} (h : Changes s i t) (hv : s.tvalid = false) :
    t.tvalid = false := by
  cases h with
  | openchkClosed | read | errchkClose => simp only [hv, Bool.false_and]
  | _ => exact hv

theorem changes_parameters {s t : State} {i : Instr} (h : Changes s i t) :
    t.rdMax = s.rdMax ∧ t.nprobeMax = s.nprobeMax := by
  cases h <;> exact ⟨rfl, rfl⟩

/-- Settles O55: an instruction keeps them, and of the other turns only the environment's exhaustion of the transport
writes `TVALID`, and lowers it. -/
theorem invalidityAndParametersPersist : Obligations.InvalidityAndParametersPersist := by
  intro s t h
  cases step_changes h with
  | instr q n i _ hc =>
    obtain ⟨hrd, hnprobe⟩ := changes_parameters hc
    exact ⟨fun hv => changes_tvalid_of_invalid hc hv, hrd, hnprobe⟩
  | exhaust q n => exact ⟨fun _ => rfl, rfl, rfl⟩
  | nothing | bytes | transport => exact ⟨id, rfl, rfl⟩

/-! ### The cycle of a dead transport (R124, R164) -/

/-- Settles O59: the four transactions one after the other; the guard of the new worker finds the transport still
invalid. -/
theorem deadTransportCyclesToInvalid : Obligations.DeadTransportCyclesToInvalid := by
  intro s hl hp hv
  calc execAll [.shutdown, .shutdownDone, .start, .wGuard] s
    _ = execAll [.shutdownDone, .start, .wGuard] { s with lifecycle := .stopping, result := .waiting } :=
      execAll_cons_of_next (exec_shutdown_of_running_or_invalid (.inr hl))
    _ = execAll [.start, .wGuard] { s with lifecycle := .ready, result := .ok } :=
      execAll_cons_of_next (exec_shutdownDone_of_enabled rfl hp)
    _ = execAll [.wGuard] { s with
          lifecycle := .running, abuf := [], rderr := false, phase := .guard, result := .ok } :=
      execAll_cons_of_next (exec_start_of_ready rfl)
    _ = .next { s with lifecycle := .invalid, abuf := [], rderr := false, phase := .idle, result := .none } :=
      (execAll_singleton _ _).trans (exec_wGuard_of_invalid rfl rfl hv)
    _ = .next { s with abuf := [], rderr := false, result := .none } := by rw [← hl, ← hp]

/-! ### The bound on a shutdown (R125) -/

/-- The most turns of its own that a cancelled worker in the given phase has left before it exits: one an iteration
that shortens the buffer, one a stop, and one each for the open, the read, the close and the guard. -/
def turnsToExit (buffered rdMax : Nat) : Phase → Nat
  | .idle => 0
  | .guard => 1
  | .errchk => 2
  | .extract => buffered + 3
  | .read => buffered + rdMax + 4
  | .openchk => buffered + rdMax + 5

/-- The bound of a state: its phase, its buffer and its `RD_MAX`. -/
abbrev exitBound (s : State) : Nat := turnsToExit s.abuf.length s.rdMax s.phase

theorem turnsToExit_le (buffered rdMax : Nat) (p : Phase) : turnsToExit buffered rdMax p ≤ buffered + rdMax + 5 := by
  cases p <;> simp only [turnsToExit] <;> omega

theorem turnsToExit_pos (buffered rdMax : Nat) {p : Phase} (hp : p ≠ .idle) : 0 < turnsToExit buffered rdMax p := by
  cases p with
  | idle => exact absurd rfl hp
  | _ => exact Nat.succ_pos _

/-- In `STOPPING` the step that `PHASE` names completes and brings the worker nearer to its exit: an iteration that
does not stop shortens the buffer, and every other step goes on to the next phase. -/
theorem exec_worker_nears_exit {s : State} (a : TAnswer) (hl : s.lifecycle = .stopping) (hworker : s.phase ≠ .idle) :
    ∃ i t, blockInstr s a = .ok i ∧ exec i s = .next t ∧
      t.lifecycle = .stopping ∧ t.turns = s.turns ∧ exitBound t < exitBound s := by
  cases hp : s.phase with
  | idle => exact absurd hp hworker
  | guard =>
    refine ⟨.wGuard, _, by simp only [blockInstr, hp], exec_wGuard_of_cancelled hp (hl.trans_ne nofun), hl, rfl, ?_⟩
    simp [exitBound, hp, turnsToExit]
  | openchk =>
    refine ⟨.wOpenchk a.openOk a.dies, ?_⟩
    cases ho : s.topen with
    | false =>
      refine ⟨_, by simp only [blockInstr, hp], exec_wOpenchk_of_closed hp ho _ _, hl, rfl, ?_⟩
      simp only [exitBound, hp, turnsToExit, List.length_nil]
      omega
    | true =>
      refine ⟨_, by simp only [blockInstr, hp], exec_wOpenchk_of_open hp ho _ _, hl, rfl, ?_⟩
      simp [exitBound, hp, turnsToExit]
  | read =>
    refine ⟨.wRead a.readLen a.readErr a.dies, _, by simp only [blockInstr, hp], exec_wRead_eq hp _ _ _,
      hl, rfl, ?_⟩
    simp only [exitBound, hp, turnsToExit, List.length_append, List.length_take]
    omega
  | extract =>
    refine ⟨.wExtract, _, by simp only [blockInstr, hp], exec_wExtract_eq hp, hl, rfl, ?_⟩
    rcases pureStep_stop_or_shorter s.abuf with ⟨hstop, -⟩ | ⟨hgoes, hshorter⟩
    · simp [exitBound, hp, turnsToExit, hstop]
    · simpa [exitBound, hp, turnsToExit, hgoes] using hshorter
  | errchk =>
    refine ⟨.wErrchk a.dies, ?_⟩
    cases hr : s.rderr with
    | false =>
      refine ⟨_, by simp only [blockInstr, hp], exec_wErrchk_of_no_error hp hr _, hl, rfl, ?_⟩
      simp [exitBound, hp, turnsToExit]
    | true =>
      refine ⟨_, by simp only [blockInstr, hp], exec_wErrchk_of_error hp hr _, hl, rfl, ?_⟩
      simp [exitBound, hp, turnsToExit]

/-- The same for the block's turn, which takes itself from the queue. -/
theorem block_turn_nears_exit {s : State} {a : TAnswer} {rest : List Turn} (hl : s.lifecycle = .stopping)
    (hturns : s.turns = .block a :: rest) (hworker : s.phase ≠ .idle) :
    ∃ t, step s = .next t ∧ t.lifecycle = .stopping ∧ t.turns = rest ∧ exitBound t < exitBound s := by
  obtain ⟨i, t, hi, hexec, hnears⟩ := exec_worker_nears_exit (s := { s with turns := rest }) a hl hworker
  exact ⟨t, (step_of_block_turn hturns hi).trans hexec, hnears⟩

/-- A run of one step more begins with that step. -/
theorem run_succ_of_next {s t : State} (h : step s = .next t) (n : Nat) :
    Host.Core.run Sys2Proof.core (n + 1) s = Host.Core.run Sys2Proof.core n t := by
  have hcore : Sys2Proof.core.step s = .next t := h
  simp only [Host.Core.run, hcore]

/-- A cancelled worker with as many turns placed as its bound asks for reaches its exit within the bound. -/
theorem worker_exits_within_bound {s : State} {rest : List Turn} (answers : List TAnswer)
    (hl : s.lifecycle = .stopping) (hturns : s.turns = answers.map Turn.block ++ rest)
    (hbound : exitBound s ≤ answers.length) :
    ∃ n t, n ≤ exitBound s ∧ Host.Core.run Sys2Proof.core n s = .next t ∧
      t.lifecycle = .stopping ∧ t.phase = .idle := by
  induction answers generalizing s with
  | nil =>
    have hidle : s.phase = .idle := by
      by_contra hworker
      exact absurd hbound (Nat.not_le.mpr (turnsToExit_pos _ _ hworker))
    exact ⟨0, s, Nat.zero_le _, rfl, hl, hidle⟩
  | cons a answers ih =>
    by_cases hidle : s.phase = .idle
    · exact ⟨0, s, Nat.zero_le _, rfl, hl, hidle⟩
    obtain ⟨t, hstep, hlt, hturnst, hnearer⟩ := block_turn_nears_exit hl hturns hidle
    rw [List.length_cons] at hbound
    obtain ⟨n, u, hn, hrun, hlu, hpu⟩ := ih hlt hturnst (by omega)
    exact ⟨n + 1, u, by omega, (run_succ_of_next hstep n).trans hrun, hlu, hpu⟩

/-- Settles O60: the statement's number of turns is the bound of the earliest phase. -/
theorem shutdownLatencyIsOneIteration : Obligations.ShutdownLatencyIsOneIteration := by
  intro s answers rest hl hturns henough
  have hle := turnsToExit_le s.abuf.length s.rdMax s.phase
  obtain ⟨n, t, hn, hexit⟩ := worker_exits_within_bound answers hl hturns (hle.trans henough)
  exact ⟨n, t, hn.trans hle, hexit⟩

end Sys2Proof.Proofs
end

section
/-! PROOFS. Errors and who writes what (60_exceptions.md): for each element the instructions that write it (R145), and
what an instruction that returns an error leaves (R130, R141). -/

namespace Sys2Proof.Proofs

open Sys2Proof Sys2Proof.Machine

/-! ### The owners of each element (R20, R22, R23, R145) -/

theorem changes_abuf_owner {s t : State} {i : Instr} (h : Changes s i t) :
    t.abuf = s.abuf ∨ i = .start ∨ isWorkerStep i = true ∨ (isHostRsy i = true ∧ s.lifecycle = .ready) := by
  cases h with
  | start => exact .inr (.inl rfl)
  | openchkClosed | read | extract => exact .inr (.inr (.inl rfl))
  | hostRsy rest fs r hi hl => exact .inr (.inr (.inr ⟨hi, hl⟩))
  | _ => exact .inl rfl

theorem changes_phase_owner {s t : State} {i : Instr} (h : Changes s i t) :
    t.phase = s.phase ∨ i = .start ∨ isWorkerStep i = true := by
  cases h with
  | crc | resultOnly | hostRsy | shutdown | probe | shutdownDone | wire => exact .inl rfl
  | start => exact .inr (.inl rfl)
  | _ => exact .inr (.inr rfl)

theorem changes_rderr_owner {s t : State} {i : Instr} (h : Changes s i t) :
    t.rderr = s.rderr ∨ i = .start ∨ ∃ n e d, i = .wRead n e d := by
  cases h with
  | start => exact .inr (.inl rfl)
  | read n e d => exact .inr (.inr ⟨n, e, d, rfl⟩)
  | _ => exact .inl rfl

/-- `TOPEN` is written by the two requests that open and close the transport (R113, R116). -/
theorem changes_topen_owner {s t : State} {i : Instr} (h : Changes s i t) :
    t.topen = s.topen ∨ (∃ d, i = .wErrchk d) ∨ ∃ ok d, i = .wOpenchk ok d := by
  cases h with
  | errchkClose d => exact .inr (.inl ⟨d, rfl⟩)
  | openchkClosed ok d => exact .inr (.inr ⟨ok, d, rfl⟩)
  | _ => exact .inl rfl

/-- The inbound stream is written where bytes arrive and where the worker reads them (R31, R114). -/
theorem changes_tstream_owner {s t : State} {i : Instr} (h : Changes s i t) :
    t.tstream = s.tstream ∨ isWireRow i = true ∨ ∃ n e d, i = .wRead n e d := by
  cases h with
  | wire b hi => exact .inr (.inl hi)
  | read n e d => exact .inr (.inr ⟨n, e, d, rfl⟩)
  | _ => exact .inl rfl

/-- The instructions that request something of a transport which becomes permanently invalid at that request
(R122). -/
def FatalRequest (i : Instr) : Prop :=
  (∃ ok, i = .wOpenchk ok true) ∨ (∃ n e, i = .wRead n e true) ∨ i = .wErrchk true

/-- A request keeps `TVALID` unless the transport dies at it, which lowers it. -/
theorem tvalid_after_request (valid dies : Bool) :
    (valid && !dies) = valid ∨ ((valid && !dies) = false ∧ dies = true) := by
  cases dies with
  | false => exact .inl (Bool.and_true valid)
  | true => exact .inr ⟨Bool.and_false valid, rfl⟩

theorem changes_tvalid_owner {s t : State} {i : Instr} (h : Changes s i t) :
    t.tvalid = s.tvalid ∨ (t.tvalid = false ∧ FatalRequest i) := by
  cases h with
  | openchkClosed ok d =>
    exact (tvalid_after_request s.tvalid d).imp_right (And.imp_right fun hd => .inl ⟨ok, by rw [hd]⟩)
  | read n e d =>
    exact (tvalid_after_request s.tvalid d).imp_right (And.imp_right fun hd => .inr (.inl ⟨n, e, by rw [hd]⟩))
  | errchkClose d =>
    exact (tvalid_after_request s.tvalid d).imp_right (And.imp_right fun hd => .inr (.inr (by rw [hd])))
  | _ => exact .inl rfl

/-- Turns are placed and taken by `step`; the instruction a turn brings does not see them. -/
theorem changes_turns {s t : State} {i : Instr} (h : Changes s i t) : t.turns = s.turns ∧ t.turnNo = s.turnNo := by
  cases h <;> exact ⟨rfl, rfl⟩

/-- Settles O56: an element that changed was changed by one of its owners. -/
theorem elementsWrittenOnlyByOwners : Obligations.ElementsWrittenOnlyByOwners := by
  intro i s t h
  have hc := exec_changes h
  have hout : t.out ≠ s.out → i = .wExtract ∨ (isHostRsy i = true ∧ s.lifecycle = .ready) := fun hne =>
    ((changes_out_owner hc).resolve_left hne).symm.imp_left And.left
  exact ⟨(changes_abuf_owner hc).resolve_left, (changes_phase_owner hc).resolve_left,
    (changes_rderr_owner hc).resolve_left, (changes_topen_owner hc).resolve_left, hout,
    (changes_tstream_owner hc).resolve_left, (changes_tvalid_owner hc).resolve_left, changes_turns hc⟩

/-! ### What an error leaves (R12, R130, R141) -/

/-- Settles O57: of all effects of an instruction only the one that writes the result port alone can carry an
error. -/
theorem errorsWriteNothing : Obligations.ErrorsWriteNothing := by
  intro i s t c h herr
  cases exec_changes h with
  | resultOnly r hreturned =>
    obtain rfl : r = .error c := herr
    exact ⟨rfl, hreturned c rfl⟩
  | crc v r _ hnoError => exact absurd herr (hnoError c)
  | hostRsy rest fs r _ _ _ hnoError => exact absurd herr (hnoError c)
  | _ => exact absurd herr nofun

end Sys2Proof.Proofs
end

section
/-! PROOFS. The environment's own transport moves (R155, R117, U1, U9, U19): what each move does, by whether the engine
runs. -/

namespace Sys2Proof.Proofs

open Sys2Proof Sys2Proof.Machine

/-! ### When the transport is the engine's (U9) -/

theorem engineRuns_of_running_or_stopping {s : State} (h : s.lifecycle = .running ∨ s.lifecycle = .stopping) :
    engineRuns s = true := by
  simpa [engineRuns] using h

theorem engineRuns_of_ready_or_invalid {s : State} (h : s.lifecycle = .ready ∨ s.lifecycle = .invalid) :
    engineRuns s = false := by
  rcases h with hready | hinvalid
  · simp [engineRuns, hready]
  · simp [engineRuns, hinvalid]

/-! ### The moves -/

/-- An environment turn presents no word, so its transaction is the move itself. -/
theorem step_of_env_turn {s : State} {e : EnvEvent} {rest : List Turn} (hturns : s.turns = .env e :: rest) :
    step s = envMove e { s with turns := rest } := by
  simp only [step, takeTurn_of_cons hturns, fetchWord, noInstruction]

/-- U19: the one move that is not asked whether the engine runs. -/
theorem envMove_exhaustT (s : State) : envMove .exhaustT s = .next (s.tExhaust.ret .none) := rfl

theorem envMove_of_engineRuns {s : State} {e : EnvEvent} (hruns : engineRuns s = true) (he : e ≠ .exhaustT) :
    envMove e s = .refused .transportOwned := by
  cases e with
  | exhaustT => exact absurd rfl he
  | openT ok => exact if_pos hruns
  | closeT => exact if_pos hruns
  | readT n => exact if_pos hruns

section EngineAtRest

variable {s : State} (hrest : engineRuns s = false)
include hrest

theorem envMove_closeT : envMove .closeT s = .next (s.tClose.ret .none) := by
  simp [envMove, hrest]

theorem envMove_readT (n : Nat) : envMove (.readT n) s = .next ((s.tReadRest n n).ret .none) := by
  simp [envMove, hrest]

theorem envMove_openT_of_closed (ok : Bool) (hclosed : s.topen = false) :
    envMove (.openT ok) s = .next ((s.tOpen ok).ret .none) := by
  simp [envMove, hrest, State.tIsOpen, hclosed]

theorem envMove_openT_of_open (ok : Bool) (hopen : s.topen = true) :
    envMove (.openT ok) s = .refused .openWhileOpen := by
  simp [envMove, hrest, State.tIsOpen, hopen]

end EngineAtRest

/-- A read of `n` bytes asks for no more than `n`, so exactly what it delivers leaves the stream. -/
theorem tReadRest_self (s : State) (n : Nat) : s.tReadRest n n = { s with tstream := s.tstream.drop n } := by
  simp only [State.tReadRest, Nat.min_self]

/-- Settles O58: the step is the environment's move on the state with the turn taken, and taking a turn leaves `STATE`
and `TOPEN` alone. -/
theorem environmentKeepsOffARunningTransport : Obligations.EnvironmentKeepsOffARunningTransport := by
  rintro s _ e rest hturns rfl
  rw [step_of_env_turn hturns]
  refine ⟨?exhausted, fun he hruns => ?owned, fun hfree => ?atRest⟩
  case exhausted =>
    rintro rfl
    exact envMove_exhaustT _
  case owned => exact envMove_of_engineRuns (engineRuns_of_running_or_stopping hruns) he
  case atRest =>
    have hrest : engineRuns { s with turns := rest } = false := engineRuns_of_ready_or_invalid hfree
    refine ⟨?closes, ?reads, ?opens, ?openTwice⟩
    case closes =>
      rintro rfl
      exact envMove_closeT hrest
    case reads =>
      rintro n rfl
      rw [envMove_readT hrest, tReadRest_self]
      rfl
    case opens =>
      rintro ok rfl hclosed
      exact envMove_openT_of_closed hrest ok hclosed
    case openTwice =>
      rintro ok rfl hopen
      exact envMove_openT_of_open hrest ok hopen

end Sys2Proof.Proofs
end

section
/-! PROOFS. The codec of transaction words (30_encoding.md): which bytes the wire decodes and to what (R51, R57, R59,
R93), decode and encode as inverses of each other (R60, R63, R65), and the block's steps where they are not enabled
(R108, R111). -/

namespace Sys2Proof.Proofs

open Sys2Proof Sys2Proof.Machine

/-! ### Well-formed frames (R51, R55, R93) -/

theorem payloadFits_iff (p : List Byte) : payloadFits p = true ↔ p.length ≤ 255 :=
  decide_eq_true_iff

/-- `len` as a number says the bound on the payload too, since a byte counts no further. -/
theorem frameConsistent_iff (f : Frame) :
    frameConsistent f = true ↔ f.len.toNat = f.payload.length ∧ f.ck = crc16 (frameBody f) := by
  simp only [frameConsistent, Bool.and_eq_true, beq_iff_eq, payloadFits_iff, and_congr_left_iff]
  intro _
  constructor
  · rintro ⟨hfits, hlen⟩
    rw [hlen, BitVec.toNat_ofNat]
    omega
  · intro hlen
    have hbyte := f.len.isLt
    refine ⟨by omega, ?_⟩
    rw [← hlen, BitVec.ofNat_toNat, BitVec.setWidth_eq]

theorem frameConsistent_wireFrame (o : Byte) {w : WireFields} (h : payloadFits w.payload = true) :
    frameConsistent (wireFrame o w) = true :=
  (frameConsistent_iff _).mpr ⟨wireFrame_len ((payloadFits_iff _).mp h), wireFrame_ck o w⟩

/-- A named operation byte is never zero, so none of the twelve rows can spell the zero frame (R57, R93). -/
theorem frameAllZero_wireFrame_opByte (n : OpName) (w : WireFields) :
    frameAllZero (wireFrame (opByte n) w) = false := by
  have hop : opByte n ∈ frameBytes (wireFrame (opByte n) w) := by
    simp [frameBytes, frameBody, headerBytes]
  have hnonzero : opByte n ≠ 0 := by cases n <;> decide
  exact (all_zero_eq_false_iff _).mpr ⟨opByte n, hop, hnonzero⟩

/-! ### What the wire decodes (R51, R57, R59) -/

/-- The wire decodes exactly the laid-out frames that are consistent and not all zero, each to the row its operation
byte selects. -/
theorem decode_wire_eq_ok_iff (b : List Byte) (i : Instr) :
    decode (.wire b) = .ok i ↔
      ∃ f, frameBytes f = b ∧ frameConsistent f = true ∧ frameAllZero f = false ∧ frameInstr f = i := by
  constructor
  · intro h
    rcases decodeWire_cases b with ⟨f, hdec, hok⟩ | ⟨e, herror⟩
    · obtain ⟨rfl, hlen, hck, hnonzero⟩ := decFrame_frame hdec
      exact ⟨f, rfl, (frameConsistent_iff f).mpr ⟨hlen, hck⟩, hnonzero, Except.ok.inj (hok.symm.trans h)⟩
    · cases herror.symm.trans h
  · rintro ⟨f, rfl, hf, hnonzero, rfl⟩
    obtain ⟨hlen, hck⟩ := (frameConsistent_iff f).mp hf
    simp only [decode, decodeWire, decFrame_frameBytes hlen hck hnonzero]

/-! ### The rows of the wire (R57, R58) -/

theorem frameInstr_of_unnamed {f : Frame} (h : opName f.op = none) : frameInstr f = .frame f := by
  simp only [frameInstr, h]

theorem frameInstr_of_named {f : Frame} {n : OpName} (h : opName f.op = some n) :
    frameInstr f = opInstr n (wireFields f) := by
  simp only [frameInstr, h]

theorem frameInstr_wireFrame_opByte (n : OpName) (w : WireFields) :
    frameInstr (wireFrame (opByte n) w) = opInstr n w :=
  frameInstr_of_named (opName_opByte n)

theorem wellFormed_frame_iff (f : Frame) : wellFormed (.frame f) = true ↔
    frameConsistent f = true ∧ frameAllZero f = false ∧ opName f.op = none := by
  simp only [wellFormed, Bool.and_eq_true, Bool.not_eq_true', Option.isNone_iff_eq_none, and_assoc]

theorem wellFormed_opInstr (n : OpName) (w : WireFields) : wellFormed (opInstr n w) = payloadFits w.payload := by
  cases n <;> rfl

theorem encode_opInstr (n : OpName) (w : WireFields) :
    encode (opInstr n w) = .wire (frameBytes (wireFrame (opByte n) w)) := by
  cases n <;> rfl

/-- The row a consistent frame is spelt by is well formed: `FRAME` only where the operation byte has no name. -/
theorem wellFormed_frameInstr {f : Frame} (hf : frameConsistent f = true) (hnonzero : frameAllZero f = false) :
    wellFormed (frameInstr f) = true := by
  cases hname : opName f.op with
  | none =>
    rw [frameInstr_of_unnamed hname]
    exact (wellFormed_frame_iff f).mpr ⟨hf, hnonzero, hname⟩
  | some n =>
    have hlen := ((frameConsistent_iff f).mp hf).1
    rw [frameInstr_of_named hname, wellFormed_opInstr]
    exact (payloadFits_iff _).mpr (by have := f.len.isLt; simp only [wireFields]; omega)

/-- The row a consistent frame is spelt by carries the frame's own bytes: what a named row leaves out, its name, the
length and the checksum give back. -/
theorem encode_frameInstr {f : Frame} (hf : frameConsistent f = true) :
    encode (frameInstr f) = .wire (frameBytes f) := by
  cases hname : opName f.op with
  | none => rw [frameInstr_of_unnamed hname, encode]
  | some n =>
    obtain ⟨hlen, hck⟩ := (frameConsistent_iff f).mp hf
    rw [frameInstr_of_named hname, encode_opInstr, ← opName_some hname, wireFrame_wireFields hlen hck]

/-- The wire rows are `FRAME` and one row for each name. -/
theorem isWireRow_cases {i : Instr} (h : isWireRow i = true) :
    (∃ f, i = .frame f) ∨ ∃ n w, i = opInstr n w := by
  cases i with
  | frame f => exact .inl ⟨f, rfl⟩
  | opReadTableBlock w => exact .inr ⟨.readTableBlock, w, rfl⟩
  | opAcknowledgeA w => exact .inr ⟨.acknowledgeA, w, rfl⟩
  | opAcknowledgeB w => exact .inr ⟨.acknowledgeB, w, rfl⟩
  | opWriteTableBlock w => exact .inr ⟨.writeTableBlock, w, rfl⟩
  | opChangeTableName w => exact .inr ⟨.changeTableName, w, rfl⟩
  | opNegativeAcknowledge w => exact .inr ⟨.negativeAcknowledge, w, rfl⟩
  | opAlarmPacket w => exact .inr ⟨.alarmPacket, w, rfl⟩
  | opReadObjectData w => exact .inr ⟨.readObjectData, w, rfl⟩
  | opReadVariable w => exact .inr ⟨.readVariable, w, rfl⟩
  | opWriteForceVariable w => exact .inr ⟨.writeForceVariable, w, rfl⟩
  | opAutoVariableReport w => exact .inr ⟨.autoVariableReport, w, rfl⟩
  | opReadList w => exact .inr ⟨.readList, w, rfl⟩
  | _ => cases h

/-! ### Decode and encode (R51, R60, R63, R65) -/

/-- On the wire it is the frame that survives, and the row is read off its operation byte. -/
theorem decode_encode_of_wireRow {i : Instr} (hi : isWireRow i = true) (hwf : wellFormed i = true) :
    decode (encode i) = .ok i := by
  rcases isWireRow_cases hi with ⟨f, rfl⟩ | ⟨n, w, rfl⟩
  · obtain ⟨hf, hnonzero, hname⟩ := (wellFormed_frame_iff f).mp hwf
    exact (decode_wire_eq_ok_iff _ _).mpr ⟨f, rfl, hf, hnonzero, frameInstr_of_unnamed hname⟩
  · rw [wellFormed_opInstr] at hwf
    rw [encode_opInstr, decode_wire_eq_ok_iff]
    exact ⟨_, rfl, frameConsistent_wireFrame _ hwf, frameAllZero_wireFrame_opByte n w,
      frameInstr_wireFrame_opByte n w⟩

/-- Off the wire every operand is well formed, and travels beside a code that names the row. -/
theorem wellFormed_and_decode_encode_of_not_wireRow {i : Instr} (hi : isWireRow i = false) :
    wellFormed i = true ∧ decode (encode i) = .ok i := by
  cases i with
  | frame | opReadTableBlock | opAcknowledgeA | opAcknowledgeB | opWriteTableBlock | opChangeTableName
  | opNegativeAcknowledge | opAlarmPacket | opReadObjectData | opReadVariable | opWriteForceVariable
  | opAutoVariableReport | opReadList => cases hi
  | _ => exact ⟨rfl, rfl⟩

/-- Settles O43: the wire rows by their frame, every other row by its code. -/
theorem decodeOfEncodeIsIdentity : Obligations.DecodeOfEncodeIsIdentity := by
  intro i hwf
  cases hi : isWireRow i with
  | true => exact decode_encode_of_wireRow hi hwf
  | false => exact (wellFormed_and_decode_encode_of_not_wireRow hi).2

/-- The command port names no wire row, whatever code and operand it carries (R60, R61). -/
theorem not_wireRow_of_decodeCmd {c : BitVec 4} {o : Operand} {i : Instr} (h : decodeCmd c o = .ok i) :
    isWireRow i = false := by
  unfold decodeCmd at h
  repeat' split at h
  all_goals cases h <;> rfl

/-- Nor does the selector (R63). -/
theorem not_wireRow_of_decodeSel {c : BitVec 5} {a : TAnswer} {i : Instr} (h : decodeSel c a = .ok i) :
    isWireRow i = false := by
  unfold decodeSel at h
  repeat' split at h
  all_goals cases h <;> rfl

/-- Nor a pseudo-operation line (R65). -/
theorem not_wireRow_decodePseudo (n : PseudoName) (b : List Byte) : isWireRow (decodePseudo n b) = false := by
  cases n <;> rfl

/-- Whichever port a word arrives on, what it decodes to is well formed. -/
theorem wellFormed_of_decode {w : TransWord} {i : Instr} (h : decode w = .ok i) : wellFormed i = true := by
  cases w with
  | cmd c o => exact (wellFormed_and_decode_encode_of_not_wireRow (not_wireRow_of_decodeCmd h)).1
  | sel c a => exact (wellFormed_and_decode_encode_of_not_wireRow (not_wireRow_of_decodeSel h)).1
  | wire b =>
    obtain ⟨f, -, hf, hnonzero, rfl⟩ := (decode_wire_eq_ok_iff b i).mp h
    exact wellFormed_frameInstr hf hnonzero
  | pseudo n b =>
    cases h
    exact (wellFormed_and_decode_encode_of_not_wireRow (not_wireRow_decodePseudo n b)).1

/-- Settles O44: port by port, and on the wire the row carries the bytes of the frame that was decoded. -/
theorem wireWordsHaveOneMeaning : Obligations.WireWordsHaveOneMeaning := by
  refine ⟨fun _ _ => wellFormed_of_decode, fun b i h => ?_⟩
  obtain ⟨f, rfl, hf, -, rfl⟩ := (decode_wire_eq_ok_iff b i).mp h
  exact encode_frameInstr hf

/-- The scenario frame of section 4, length and checksum computed by R55 and R72. -/
theorem encode_scenarioFrame :
    encode (.opReadTableBlock ⟨0x0001, 0xF1F1, 0x00, 0x00, [0x00, 0x01, 0x01]⟩) =
      .wire [0x01, 0x00, 0xF1, 0xF1, 0x03, 0x00, 0x00, 0x0B, 0x00, 0x01, 0x01, 0x32, 0x94] := by
  decide +kernel

/-- Settles O45: the fixed codes by their tables, the wire frame as what its row encodes to. -/
theorem sampleWordsDecode : Obligations.SampleWordsDecode := by
  refine ⟨rfl, rfl, rfl, rfl, rfl, rfl, ?scenario⟩
  rw [← encode_scenarioFrame]
  exact decodeOfEncodeIsIdentity _ rfl

/-! ### The block's steps where they are not enabled (R108, R111) -/

theorem whenPhase_of_other_phase {p : Phase} {s : State} (hp : s.phase ≠ p) (a : Answer) :
    whenPhase p s a = .refused .notEnabled :=
  if_neg hp

theorem exec_shutdownDone_of_not_enabled {s : State} (h : ¬ (s.lifecycle = .stopping ∧ s.phase = .idle)) :
    exec .shutdownDone s = .refused .notEnabled :=
  if_neg (mt (doneEnabled_iff s).mp h)

/-- Settles O39: each worker step asks for its own phase first, and the completion for both its conditions. -/
theorem blockStepsRefusedWhereNotEnabled : Obligations.BlockStepsRefusedWhereNotEnabled := by
  intro s ok err dies n
  exact ⟨fun hp => whenPhase_of_other_phase hp _, fun hp => whenPhase_of_other_phase hp _,
    fun hp => whenPhase_of_other_phase hp _, fun hp => whenPhase_of_other_phase hp _,
    fun hp => whenPhase_of_other_phase hp _, exec_shutdownDone_of_not_enabled⟩

end Sys2Proof.Proofs
end
